-- ==== Sys2Proof/Word.lean ====
section
/-! DEFINITION. The word types of the module: every number the spec lays out in bits (R4, R5). -/

namespace Sys2Proof

/-- One byte of memory. -/
abbrev Byte := BitVec 8
/-- A 32-bit word: FP32 bit patterns, scales. -/
abbrev W32 := BitVec 32
/-- A 64-bit word: registers (R8), operand words (R167). -/
abbrev W64 := BitVec 64
/-- A 32-byte table entry: region, parameter group, random stream, watch entry. -/
abbrev W256 := BitVec 256
/-- A tensor descriptor, 64 bytes (R153). -/
abbrev W512 := BitVec 512
/-- A native record, 128 bytes (R167). -/
abbrev W1024 := BitVec 1024

end Sys2Proof
end

