-- ==== Sys2Proof/Syntax.lean ====
section
/-! DEFINITION. The commands of the block: one constructor of `Instr` per row of spec/opcode_table.json, and the data
that arrives with a command from outside (packets, flits, identity frames). -/

namespace Sys2Proof

/-- Which doorbell page a host access goes through (R133): page `i` of PF0 BAR2, or page `page` of the doorbell BAR of
virtual function `vf`. -/
inductive Door where
  | pf (i : Fin 1024)
  | vf (vf : Fin 64) (page : Fin 16)
deriving DecidableEq, Repr

/-- Tables that the module keeps in several copies (R362). -/
inductive Table where
  | desc
  | region
  | stream
  | group
  | watch
  | remap
  | detour
deriving DecidableEq, Repr

/-- An error that a command's work meets in a memory, with its wrong bits: a word of 64 bits of HBM or of a slice (R218-R220), named
by its number in the module (stack times 2^33 plus word of the stack); or a word of a static RAM (R362), whose die counts it. -/
inductive MemErr where
  /-- met by a read of the stack -/
  | word (word bits : Nat)
  /-- in the copy that the home slice holds -/
  | slice (word bits : Nat)
  /-- met when the slice writes the word's line back -/
  | writeBack (word bits : Nat)
  /-- scratch or side-list buffer of partition `p` -/
  | scratch (p : Fin 16) (bits : Nat)
  /-- an entry of a replicated table, in one of its copies; `good` tells whether another copy is good -/
  | table (t : Table) (entry : Nat) (die : Fin 6) (bits : Nat) (good : Bool)
  | flag (f : Fin 65536) (die : Fin 6) (bits : Nat)
  /-- sequencer state or microcode store of partition `p` -/
  | control (p : Fin 16) (bits : Nat)
deriving DecidableEq, Repr

/-- The packet header of Table 8.6 (R250), reserved bits left out. -/
structure PktHdr where
  dst : BitVec 24
  src : BitVec 24
  ctx : BitVec 6
  ctxValid : Bool
  gen : BitVec 16
  epoch : BitVec 16
  ptype : BitVec 8
  len : BitVec 17
  route : BitVec 32
  bseq : BitVec 16
  opq : BitVec 64
deriving DecidableEq, Repr

/-- The value a span reduction carries (R297): votes (R318), the norm accumulator (R296), cast completion (R328). -/
inductive SpanVal where
  | vote (commit halt : Bool)
  | norm (acc : Nat) (nonfinite : Bool)
  | cast (gen : W32) (done : Bool)
deriving DecidableEq, Repr

/-- The payload of a packet. Where the spec lays the payload out byte for byte it is `bytes`; where it only says what the
payload states (discovery, notices, route broadcasts, `COLL_READY`, `SPAN`, cast control, watch answers) it is those data. -/
inductive Payload where
  | bytes (data : List Byte)
  /-- an election packet (R254 step 2): the lowest root key seen -/
  | rootKey (prio : BitVec 8) (ident : W64)
  /-- an address assignment (R254 step 4) -/
  | address (addr : BitVec 24)
  /-- a link notice (R264): the link by its plus end and even port, its new state, width and time stamp -/
  | notice (addr : BitVec 24) (port : BitVec 3) (state : BitVec 3) (lanes : Nat) (stamp : W64)
  /-- a route-table broadcast (R260): the new epoch, the remap entries and the detour entries 0-223 -/
  | routes (epoch : BitVec 16) (remap : List (Nat × W64)) (detour : List (Nat × W64))
  /-- Table 9.1: opcode, P0 and element count of the receiver's collective, `fmt` and `scale` of its source -/
  | collReady (opcode : BitVec 8) (p0 : W64) (count : Nat) (fmt : BitVec 4) (scale : W32)
  /-- one span-reduction value (R297), the axis it travels on, its sender's coordinate there -/
  | span (axis : Fin 4) (coord : BitVec 6) (value : SpanVal)
  /-- Table 11.5: byte counts sent per kind -/
  | castDone (mirror parity record : Nat)
  /-- Table 11.5: highest contiguous offset stored, per kind -/
  | castAck (mirror parity record : Nat)
  /-- Table 11.5 and R351: sender, generation, kind, offset, length, direction -/
  | castFetch (sender : BitVec 24) (gen : W32) (kind : BitVec 2) (off len : Nat) (dir : Bool)
  /-- a remote watch copy (R411): the ring it goes to and its bytes, header of Table 13.8 first -/
  | watch (id : Nat) (region : BitVec 10) (off : Nat) (slotBytes slots : Nat) (data : List Byte)
  /-- `WATCH_ACK` (R411): whether the copy was written -/
  | watchAck (id : Nat) (written : Bool)
deriving DecidableEq, Repr

/-- A packet (R250): header and payload. -/
structure Packet where
  hdr : PktHdr
  payload : Payload
deriving DecidableEq, Repr

/-- The identity frame of Table 8.3 step 5: part code, module identity, port number, root key, physical address if
known. -/
structure Identity where
  part : W32
  ident : W64
  port : BitVec 3
  rootPrio : BitVec 8
  phys : Option (BitVec 24)
deriving DecidableEq, Repr

/-- The transports of SPDM requests (R441). -/
inductive Chan where
  | doe
  | mctp
deriving DecidableEq, Repr

/-- What configuration software sets once the link is up (R227, R229): the functions (0 PF0, v + 1 VF v) whose Bus Master Enable it
leaves at 0, those that may set Relaxed Ordering on reads, and the powers of two of the payload and read request sizes over 128. -/
structure PcieSetup where
  noMaster : List (Fin 65) := []
  relaxed : List (Fin 65) := []
  payload : Nat := 2
  readReq : Nat := 2
deriving DecidableEq, Repr, Inhabited

/-- Where a register write goes (R8, R133): an offset in BAR0, or an offset in a doorbell page. -/
inductive RegAddr where
  | bar0 (off : Nat)
  | door (d : Door) (off : Nat)
deriving DecidableEq, Repr

/-- The commands. Each docstring names the rule the command stands under. -/
inductive Instr where
  -- records that issue at the head of queue `q` (R142, R170); `errs` are the memory errors its reads meet (R219, R220)
  | nop (q : Fin 1024)
  | matmul (q : Fin 1024) (errs : List MemErr)
  | bmatmul (q : Fin 1024) (errs : List MemErr)
  | conv (q : Fin 1024) (errs : List MemErr)
  | attn (q : Fin 1024) (errs : List MemErr)
  | eltwise (q : Fin 1024) (errs : List MemErr)
  | reduce (q : Fin 1024) (errs : List MemErr)
  | norm (q : Fin 1024) (errs : List MemErr)
  | softmax (q : Fin 1024) (errs : List MemErr)
  | copy (q : Fin 1024) (errs : List MemErr)
  | gather (q : Fin 1024) (errs : List MemErr)
  | scatter (q : Fin 1024) (errs : List MemErr)
  | transpose (q : Fin 1024) (errs : List MemErr)
  | hostXfer (q : Fin 1024) (errs : List MemErr)
  | prefetchList (q : Fin 1024)
  | scatterReduce (q : Fin 1024) (errs : List MemErr)
  | atomicCas (q : Fin 1024) (errs : List MemErr)
  | allReduce (q : Fin 1024) (errs : List MemErr)
  | reduceScatter (q : Fin 1024) (errs : List MemErr)
  | allGather (q : Fin 1024) (errs : List MemErr)
  | allToAll (q : Fin 1024) (errs : List MemErr)
  | broadcast (q : Fin 1024) (errs : List MemErr)
  | reduceUpdate (q : Fin 1024) (errs : List MemErr)
  | stepBegin (q : Fin 1024)
  | stepEnd (q : Fin 1024)
  | vote (q : Fin 1024)
  | flip (q : Fin 1024)
  | interlude (q : Fin 1024)
  | descWrite (q : Fin 1024)
  | streamWrite (q : Fin 1024)
  | groupWrite (q : Fin 1024)
  | watchWrite (q : Fin 1024)
  -- the life of an operation
  | opComplete (q : Fin 1024)
  | fallback (q : Fin 1024) (errs : List MemErr)
  | prefetchListDone (c : Fin 64) (layer : BitVec 16)
  | collEngineStart (e : Fin 8)
  -- doorbells and flags
  | dbTailWrite (d : Door) (value : W32)
  | dbResumeSkip (d : Door)
  | dbResumeRetry (d : Door)
  | dbFlagValWrite (d : Door) (value : W64)
  | dbFlagAddWrite (d : Door) (value : W64)
  | flgValWrite (f : Fin 65536) (value : W64)
  | flgAddWrite (f : Fin 65536) (value : W64)
  -- contexts, regions, queues, descriptors
  | ctxEnable (c : Fin 64)
  | ctxTeardown (c : Fin 64)
  | teardownQuiesced (c : Fin 64)
  | teardownTimeout (c : Fin 64) (silent : BitVec 16)
  | regionWrite (c : Fin 64) (n : Fin 1024)
  | regionRead (c : Fin 64) (n : Fin 1024)
  | queueEnable (q : Fin 1024) (cfg : W64)
  | queueDisable (q : Fin 1024)
  | tdtCmd (entry : Fin 131072)
  | contextSwitch (p : Fin 16)
  | interludeBudgetExpiry (e : Fin 64)
  -- memory
  | zoneCommit
  | bar4Read (off len : Nat) (errs : List MemErr)
  | bar4Write (off : Nat) (data : List (Option Byte))
  | bar4Atomicop (kind : BitVec 2) (wide : Bool) (off : Nat) (a b : W64)
  | bar4Resize (log2 : Nat)
  | hostCompletion (tag : Nat) (data : List Byte) (poisoned : Bool)
  | hostRequestFailed (tag : Nat)
  | memorySideWake (p : Fin 16)
  | patrolScrubRead (p : Fin 16) (bits : Nat) (late : Bool)
  | sliceScrub (p : Fin 16) (errs : List MemErr) (late : Bool)
  | stackTempSample (p : Fin 16) (t : BitVec 8)
  | stackCooledReturn (p : Fin 16)
  -- fabric: ports
  | portEnable (n : Fin 8)
  | portDisable (n : Fin 8)
  | portRetrain (n : Fin 8)
  | portFence (n : Fin 8)
  | portUnfence (n : Fin 8)
  | peerDetected (n : Fin 8) (maxMode : Fin 3)
  | trainingComplete (n : Fin 8) (failed : BitVec 8) (ident : Option Identity)
  | laneFail (n : Fin 8) (lanes : BitVec 8)
  | dataFlitReceive (n : Fin 8) (flit : List Byte)
  | nakReceive (n : Fin 8) (flit : List Byte) (lanes : BitVec 8)
  | keepaliveSend (n : Fin 8)
  | keepaliveReceive (n : Fin 8) (flit : List Byte)
  | keepaliveTimeout (n : Fin 8)
  | autoRetrain (n : Fin 8)
  -- fabric: packets and routing
  | packetReceive (n : Fin 8) (vc : Fin 8) (cls : Bool) (pkt : Packet)
  | linkNoticeReceive (n : Fin 8) (pkt : Packet)
  | discoveryReceive (n : Fin 8) (pkt : Packet)
  | joinWindowExpiry
  | electionTimeout
  | routeLoadStaging
  | routeCommitLocal
  | routeCommitBroadcast
  | routeClearAuto
  | routeBroadcastReceive (n : Fin 8) (pkt : Packet)
  | genWr (c : Fin 64) (value : BitVec 16)
  | linkWatchdogExpiry (d : Fin 2)
  -- collectives
  | collReadyReceive (n : Fin 8) (pkt : Packet)
  | collDataReceive (n : Fin 8) (pkt : Packet)
  | gatherRowsReceive (n : Fin 8) (pkt : Packet)
  | spanReceive (n : Fin 8) (pkt : Packet)
  | collTimeout (q : Fin 1024)
  | updatePhaseDone (c : Fin 64)
  -- steps
  | verdictFixed (c : Fin 64)
  | stepVeto (c : Fin 64)
  | stepAbandon (c : Fin 64)
  | stepClose (c : Fin 64)
  | closeTakesEffect (c : Fin 64)
  | stepClearHalt (c : Fin 64)
  | stepSet (c : Fin 64) (value : W64)
  -- casts
  | castLoad (c : Fin 64) (blank : Bool)
  | castUnload (c : Fin 64)
  | castRestore (c : Fin 64) (checkToken : Bool)
  | restoreComplete (c : Fin 64)
  | castDataReceive (n : Fin 8) (pkt : Packet)
  | castDeltaReceive (n : Fin 8) (pkt : Packet)
  | castRecReceive (n : Fin 8) (pkt : Packet)
  | castDoneReceive (n : Fin 8) (pkt : Packet)
  | castAckReceive (n : Fin 8) (pkt : Packet)
  | castFetchReceive (n : Fin 8) (pkt : Packet)
  | castAbandonTimeout (c : Fin 64)
  -- resets, faults, hangs
  | moduleReset (value : W32)
  | partReset (p : Fin 16)
  | partResetComplete (p : Fin 16)
  | partEnable (p : Fin 16)
  | partDisable (p : Fin 16)
  | opTimeout (q : Fin 1024)
  | shareStopTimeout (q : Fin 1024) (parts : BitVec 16)
  | queueStall (q : Fin 1024)
  | deadlockScan
  | bar0NoResponse (off : Nat) (write : Bool)
  | armatureWatchdogExpiry
  | dumpTrigger
  | dumpDiscard
  | dumpCaptureDone (sections : List (List Byte × Option Nat))
  | ucodeLoad (p : Fin 16)
  | ucodeParked (p : Fin 16)
  | ucodeParkTimeout (p : Fin 16)
  -- counters, trace, watch, global stop
  | counterWindowEnd
  | trcMark (value : W64)
  | trcFlush (buffers : BitVec 17)
  | traceIdleFlush (b : Fin 17)
  | watchDataReceive (n : Fin 8) (pkt : Packet)
  | watchAckReceive (n : Fin 8) (pkt : Packet)
  | watchAckTimeout (id : Nat)
  | stopArm
  | stopCancel
  | stopRelease
  | globalStopTake
  | globalStopResume
  -- bring-up, boot, security, host
  | powerOn
  | flowConfirmed
  | bringupReady (failed : BitVec 16)
  | bootVolatileUpdate (target persist : Bool)
  | bootWriteFirmware
  | bootWriteConfig
  | bootEraseLog
  | bootRecoveryRun
  | bootRecoveryConfig
  | bootCopyFlash (flashOff : BitVec 27)
  | secProvisionOwner
  | secReplaceOwner
  | secWriteChain
  | secDebugUnlock
  | secDebugRelock
  | secRaiseMinSvn
  | presenceAssert
  | presenceRelease
  | presenceExpiry
  | sealCheck (intact : Bool)
  | perstAssert
  | perstDeassert
  | pcieLinkDown
  | flrVf (v : Fin 64)
  | flrPf0
  | msixUnmask (fn : Option (Fin 64)) (vec : Nat)
  | jtagBoundarySelect
  | pldmSensorRead
  | getVersion (ch : Chan)
  | getCapabilities (ch : Chan) (flags : W32)
  | negotiateAlgorithms (ch : Chan) (measSpec : Byte) (asym hash : W32)
  | getDigests (ch : Chan)
  | getCertificate (ch : Chan) (slot off len : Nat)
  | challenge (ch : Chan) (slot : Nat) (measType : Byte) (nonce : List Byte)
  | getMeasurements (ch : Chan) (attr op : Byte) (nonce : List Byte) (slot : Nat)
  | spdmUnsupportedRequest (ch : Chan) (code : Byte)
  | vendorReadFaultLog (index : Nat)
  | vendorReadEventLog (sector count : Nat)
  | vendorReadDump (page : BitVec 8)
  | vendorReadStatus
  -- power, cooling, clocks
  | powerSample (volts10mv amps10ma : BitVec 16)
  | inputOvervoltage
  | brownout
  | brownoutReturn
  | dieTempSample (temps : List (BitVec 8))
  | coolantSample (flowMl : BitVec 16) (inlet outlet : BitVec 8)
  | refClockLoss
  | pwrMsTarget (target : BitVec 2)
  | msTransitionDone
  | partClockGate (p : Fin 16)
  | partPowerGate (p : Fin 16)
  | partWake (p : Fin 16)
  | registerWrite (a : RegAddr) (size : Nat) (value : W64)
  | alwaysOnPowerLoss
  | pcieLinkUp
  | vfEnable (on : Bool) (num : BitVec 16)
  | stackParityError (p : Fin 16)
  | stackPhyLinkLoss (p : Fin 16)
  | idleFlitReceive (n : Fin 8) (flit : List Byte)
  | doeDiscovery (index : Byte)
  | mctpEndpointIdAssign (eid : Byte)
  | calibrationRecordWrite
deriving DecidableEq, Repr

end Sys2Proof
end

