-- ==== Sys2Proof/Decode.lean ====
section
/-! DEFINITION. The commands that a word spells. No row of the opcode table gives bits: commands are events at the block's
edge, not encoded words, so no word spells one. -/

namespace Sys2Proof

/-- The command that a word of `nbits` bits spells by the table: the table gives no row bits. -/
def decodeTableWord (_nbits _w : Nat) : Option Instr := none

end Sys2Proof
end

