-- ==== Sys2Proof/Config.lean ====
section
/-! DEFINITION. What the spec leaves open: free values, functions that the spec fixes only within an error bound, and
what an implementation fuses. None has a body a proof could see (log entries 7, 9, 12). -/

namespace Sys2Proof.Config

/-- The k-th free byte: a byte the spec leaves undefined. -/
opaque freeByte : Nat → Byte
/-- The k-th free number. -/
opaque freeNat : Nat → Nat

/-- The bytes of a payload whose layout the spec does not give, the first and the others (log entry 14). -/
opaque ctlBytes : Payload → Byte × List Byte

/-- What configuration software sets after a link has come up (log entry 8). -/
opaque pcieSetup : Nat → PcieSetup

/-- `LNK_LAT` by mode in use (R271): delays that each module is measured for (log entry 7). -/
opaque linkLat : Nat → W32

/-- Cycle, stall and byte counters that depend on a schedule the spec does not fix: word, time base (log entry 15). -/
opaque cycleCount : Nat → Nat → Nat

/-- Which of the values within the error of Table 6.5 a table-based function holds, by code, for an FP32 pattern (log entry 12). -/
opaque tableFn : Nat → W32 → W32

/-- What the fuses and mask ROM of LD0 hold (R421, R442, R443): the hash of the Pyrtas signing key, the digest of the boot
ROM, the certificate chain of slot 0 (log entry 7). -/
opaque pyrtasKeyHash : W256
opaque bootRomDigest : W256
opaque chain0 : List Byte

/-- What else is fused: module identity (0), stepping (1), vendor identifier (2) (R26, R430, R442; log entry 7). -/
opaque fused : Nat → Nat

/-- The device key's signature over a message (R442): its private part is fused (log entry 7). -/
opaque sign : List Byte → List Byte

/-- Whether a payload is a well-formed microcode image (R385): its format is not given (log entry 7). -/
opaque ucodeOk : List Byte → Bool

/-- Version, SVN and digest (last argument 0, 1, 2) of the initial image of a kind that a firmware payload carries (R421);
the payload's layout is not given (log entry 7). -/
opaque initialImage : List Byte → Nat → Nat → Nat

end Sys2Proof.Config
end

