-- ==== Sys2Proof/Machine/Tab.lean ====
section
/-! DEFINITION. Sparse tables: memory, registers and the numbered objects of the module are lists of (key, value) pairs
with keys strictly rising and no entry equal to what an unlisted key reads as, so that equal tables are equal data. -/

namespace Sys2Proof.Machine

/-- A table keyed by Nat in canonical form (`Tab.wf`). -/
abbrev Tab (α : Type) := List (Nat × α)

/-- The value at key `i`; `d` is what an unlisted key reads as. -/
def Tab.get {α : Type} (d : α) : Tab α → Nat → α
  | [], _ => d
  | (k, v) :: t, i => if i = k then v else Tab.get d t i

/-- Removes key `i`. -/
def Tab.del {α : Type} (t : Tab α) (i : Nat) : Tab α := t.filter fun e => e.1 != i

/-- Puts `v` at key `i`, in key order. -/
def Tab.put {α : Type} : Tab α → Nat → α → Tab α
  | [], i, v => [(i, v)]
  | (k, w) :: t, i, v =>
    if i = k then (i, v) :: t else if i < k then (i, v) :: (k, w) :: t else (k, w) :: Tab.put t i v

/-- Writes `v` at key `i`: writing what an unlisted key reads as removes the entry. -/
def Tab.set {α : Type} [DecidableEq α] (d : α) (t : Tab α) (i : Nat) (v : α) : Tab α :=
  if v = d then t.del i else t.put i v

/-- Removes every key in [`lo`, `hi`). -/
def Tab.clear {α : Type} (t : Tab α) (lo hi : Nat) : Tab α :=
  t.filter fun e => ! (decide (lo ≤ e.1) && decide (e.1 < hi))

/-- Every key above `b` and rising, no value equal to `d`. -/
def Tab.wfFrom {α : Type} [DecidableEq α] (d : α) : Nat → Tab α → Bool
  | _, [] => true
  | b, (k, v) :: t => decide (b ≤ k) && decide (v ≠ d) && Tab.wfFrom d (k + 1) t

/-- The canonical form. -/
def Tab.wf {α : Type} [DecidableEq α] (d : α) (t : Tab α) : Bool := Tab.wfFrom d 0 t

end Sys2Proof.Machine
end

