-- ==== Sys2Proof/Machine/Bits.lean ====
section
/-! DEFINITION. Bit fields, sign extension and byte order (R3, R4: little-endian), on the natural numbers that bit
patterns spell. -/

namespace Sys2Proof.Machine

/-- Bits [`lo` + `len` - 1 : `lo`] of `x`. -/
def bits (x lo len : Nat) : Nat := (x >>> lo) % 2 ^ len

/-- Bit `i` of `x`. -/
def bit (x i : Nat) : Bool := x.testBit i

/-- `x` with bits [`lo` + `len` - 1 : `lo`] replaced by those of `v`. -/
def setBits (x lo len v : Nat) : Nat :=
  x % 2 ^ lo + (v % 2 ^ len) * 2 ^ lo + (x >>> (lo + len)) * 2 ^ (lo + len)

/-- 1 for true. -/
def b2n (b : Bool) : Nat := if b then 1 else 0

/-- `x` read as a two's complement number of `w` bits. -/
def signed (w x : Nat) : Int := if x % 2 ^ w < 2 ^ (w - 1) then (x % 2 ^ w : Nat) else ((x % 2 ^ w : Nat) : Int) - (2 ^ w : Nat)

/-- The two's complement pattern of `w` bits of `z`. -/
def unsigned (w : Nat) (z : Int) : Nat := (z % ((2 ^ w : Nat) : Int)).toNat

/-- `x + n`, no further than the largest number of `w` bits (saturating counters). -/
def satAdd (w x n : Nat) : Nat := min (x + n) (2 ^ w - 1)

/-- The number that bytes spell, first byte least significant (R4). -/
def leNat : List Byte → Nat
  | [] => 0
  | b :: t => b.toNat + 256 * leNat t

/-- The `n` bytes that spell `x`, least significant first (R4). -/
def leBytes : Nat → Nat → List Byte
  | 0, _ => []
  | n + 1, x => BitVec.ofNat 8 x :: leBytes n (x / 256)

/-- Bytes [`lo`, `lo` + `n`) of a list, zero past its end. -/
def slice (l : List Byte) (lo n : Nat) : List Byte :=
  (l.drop lo).take n ++ List.replicate (n - (l.length - lo)) 0

/-- Whether every bit of `x` in the listed (first bit, bits) ranges is zero. -/
def zeroIn (x : Nat) (rs : List (Nat × Nat)) : Bool := rs.all fun r => bits x r.1 r.2 == 0

/-- The numbers below `n` whose bit is set in `mask`, ascending. -/
def bitList (n mask : Nat) : List Nat := (List.range n).filter fun i => mask.testBit i

/-- How many of the low `n` bits of `mask` are set. -/
def popCount (n mask : Nat) : Nat := (bitList n mask).length

/-- Ceiling of `a / b`. -/
def ceilDiv (a b : Nat) : Nat := (a + b - 1) / b

/-- A list of numbers with `x` added once. -/
def insertNew (x : Nat) (l : List Nat) : List Nat := if l.contains x then l else l ++ [x]

end Sys2Proof.Machine
end

