-- ==== Sys2Proof/Machine/Regs.lean ====
section
/-! DEFINITION. The registers of PF0 BAR0: where each lies (block bases of 14 Table 14.7), its width, the value after
reset of its domain (R7; `cfg` fields hold the default of Table 14.2, `hw` fields 0, log entry 3), and which of its bits
a write sets or clears (R8). Every name is the spec's: register, then field. -/

namespace Sys2Proof.Machine

/-- A field of a register: offset of the register with index 0, distance of the next index, first bit, bits, and the
reset value of the whole register. -/
structure Fld where
  base : Nat
  stride : Nat
  lo : Nat
  len : Nat
  reset : Nat
deriving DecidableEq, Repr

/-- A register of the map: offset, strides and counts of its two indexes (count 1 where it has none), bytes, reset
value, bits that a write sets (RW), bits that a written 1 clears (W1C), reserved bits (RSV). -/
structure Reg where
  base : Nat
  stride : Nat
  count : Nat
  stride2 : Nat
  count2 : Nat
  bytes : Nat
  reset : Nat
  rw : Nat
  w1c : Nat
  rsv : Nat
deriving DecidableEq, Repr

namespace F

def GEO_IDENT_part_code : Fld := ⟨0x0, 0, 0, 32, 0x10000003016⟩
def GEO_IDENT_stepping : Fld := ⟨0x0, 0, 32, 8, 0x10000003016⟩
def GEO_IDENT_geo_layout : Fld := ⟨0x0, 0, 40, 8, 0x10000003016⟩
def GEO_COUNT_compute_dies : Fld := ⟨0x8, 0, 0, 4, 0x88402020406c1024⟩
def GEO_COUNT_link_dies : Fld := ⟨0x8, 0, 4, 4, 0x88402020406c1024⟩
def GEO_COUNT_partitions : Fld := ⟨0x8, 0, 8, 8, 0x88402020406c1024⟩
def GEO_COUNT_cores_per_part : Fld := ⟨0x8, 0, 16, 12, 0x88402020406c1024⟩
def GEO_COUNT_arrays_per_core : Fld := ⟨0x8, 0, 28, 4, 0x88402020406c1024⟩
def GEO_COUNT_array_rows : Fld := ⟨0x8, 0, 32, 8, 0x88402020406c1024⟩
def GEO_COUNT_array_cols : Fld := ⟨0x8, 0, 40, 8, 0x88402020406c1024⟩
def GEO_COUNT_vector_lanes : Fld := ⟨0x8, 0, 48, 8, 0x88402020406c1024⟩
def GEO_COUNT_vufen_ports : Fld := ⟨0x8, 0, 56, 4, 0x88402020406c1024⟩
def GEO_COUNT_lanes_per_port : Fld := ⟨0x8, 0, 60, 4, 0x88402020406c1024⟩
def GEO_MEM_stack_gib : Fld := ⟨0x10, 0, 0, 16, 0x828400800180040⟩
def GEO_MEM_slice_mib : Fld := ⟨0x10, 0, 16, 8, 0x828400800180040⟩
def GEO_MEM_scratch_kib : Fld := ⟨0x10, 0, 24, 16, 0x828400800180040⟩
def GEO_MEM_side_list_kib : Fld := ⟨0x10, 0, 40, 8, 0x828400800180040⟩
def GEO_MEM_pa_bits : Fld := ⟨0x10, 0, 48, 8, 0x828400800180040⟩
def GEO_MEM_dump_mib : Fld := ⟨0x10, 0, 56, 8, 0x828400800180040⟩
def GEO_TAB0_tdt_entries : Fld := ⟨0x18, 0, 0, 24, 0x400400104001e000⟩
def GEO_TAB0_contexts : Fld := ⟨0x18, 0, 24, 8, 0x400400104001e000⟩
def GEO_TAB0_queues_per_ctx : Fld := ⟨0x18, 0, 32, 8, 0x400400104001e000⟩
def GEO_TAB0_regions_per_ctx : Fld := ⟨0x18, 0, 40, 16, 0x400400104001e000⟩
def GEO_TAB0_max_vfs : Fld := ⟨0x18, 0, 56, 8, 0x400400104001e000⟩
def GEO_TAB1_flags : Fld := ⟨0x20, 0, 0, 32, 0x100100000010000⟩
def GEO_TAB1_rng_streams : Fld := ⟨0x20, 0, 32, 16, 0x100100000010000⟩
def GEO_TAB1_param_groups : Fld := ⟨0x20, 0, 48, 16, 0x100100000010000⟩
def GEO_TAB2_watch_entries : Fld := ⟨0x28, 0, 0, 16, 0x288010010000100⟩
def GEO_TAB2_remap_entries : Fld := ⟨0x28, 0, 16, 16, 0x288010010000100⟩
def GEO_TAB2_detour_entries : Fld := ⟨0x28, 0, 32, 16, 0x288010010000100⟩
def GEO_TAB2_update_engines : Fld := ⟨0x28, 0, 48, 4, 0x288010010000100⟩
def GEO_TAB2_collective_engines : Fld := ⟨0x28, 0, 52, 4, 0x288010010000100⟩
def GEO_TAB2_casting_engines : Fld := ⟨0x28, 0, 56, 4, 0x288010010000100⟩
def GEO_CLOCK_pclk_nom_mhz : Fld := ⟨0x30, 0, 0, 16, 0x64004b0012c0352⟩
def GEO_CLOCK_pclk_min_mhz : Fld := ⟨0x30, 0, 16, 16, 0x64004b0012c0352⟩
def GEO_CLOCK_fclk_mhz : Fld := ⟨0x30, 0, 32, 16, 0x64004b0012c0352⟩
def GEO_CLOCK_xclk_mhz : Fld := ⟨0x30, 0, 48, 16, 0x64004b0012c0352⟩
def GEO_AVAIL_part_avail : Fld := ⟨0x38, 0, 0, 16, 0x0⟩
def GEO_AVAIL_port_avail : Fld := ⟨0x38, 0, 16, 8, 0x0⟩
def GEO_FEAT_fmt_e2m1 : Fld := ⟨0x40, 0, 0, 1, 0x3ffffff⟩
def GEO_FEAT_fmt_e4m3 : Fld := ⟨0x40, 0, 1, 1, 0x3ffffff⟩
def GEO_FEAT_fmt_e5m2 : Fld := ⟨0x40, 0, 2, 1, 0x3ffffff⟩
def GEO_FEAT_fmt_bf16 : Fld := ⟨0x40, 0, 3, 1, 0x3ffffff⟩
def GEO_FEAT_fmt_int4 : Fld := ⟨0x40, 0, 4, 1, 0x3ffffff⟩
def GEO_FEAT_fmt_int8 : Fld := ⟨0x40, 0, 5, 1, 0x3ffffff⟩
def GEO_FEAT_fuse_temporal : Fld := ⟨0x40, 0, 6, 1, 0x3ffffff⟩
def GEO_FEAT_fuse_spatial : Fld := ⟨0x40, 0, 7, 1, 0x3ffffff⟩
def GEO_FEAT_table_product : Fld := ⟨0x40, 0, 8, 1, 0x3ffffff⟩
def GEO_FEAT_semiring : Fld := ⟨0x40, 0, 9, 1, 0x3ffffff⟩
def GEO_FEAT_int_zero_point : Fld := ⟨0x40, 0, 10, 1, 0x3ffffff⟩
def GEO_FEAT_stream_v1 : Fld := ⟨0x40, 0, 11, 1, 0x3ffffff⟩
def GEO_FEAT_stream_v2 : Fld := ⟨0x40, 0, 12, 1, 0x3ffffff⟩
def GEO_FEAT_lane_100g : Fld := ⟨0x40, 0, 13, 1, 0x3ffffff⟩
def GEO_FEAT_lane_200g : Fld := ⟨0x40, 0, 14, 1, 0x3ffffff⟩
def GEO_FEAT_lane_400g : Fld := ⟨0x40, 0, 15, 1, 0x3ffffff⟩
def GEO_FEAT_upd_lagged : Fld := ⟨0x40, 0, 16, 1, 0x3ffffff⟩
def GEO_FEAT_upd_exact : Fld := ⟨0x40, 0, 17, 1, 0x3ffffff⟩
def GEO_FEAT_master_full : Fld := ⟨0x40, 0, 18, 1, 0x3ffffff⟩
def GEO_FEAT_master_split : Fld := ⟨0x40, 0, 19, 1, 0x3ffffff⟩
def GEO_FEAT_master_lean : Fld := ⟨0x40, 0, 20, 1, 0x3ffffff⟩
def GEO_FEAT_cast_mirror : Fld := ⟨0x40, 0, 21, 1, 0x3ffffff⟩
def GEO_FEAT_cast_parity : Fld := ⟨0x40, 0, 22, 1, 0x3ffffff⟩
def GEO_FEAT_interlude : Fld := ⟨0x40, 0, 23, 1, 0x3ffffff⟩
def GEO_FEAT_global_stop : Fld := ⟨0x40, 0, 24, 1, 0x3ffffff⟩
def GEO_FEAT_spdm : Fld := ⟨0x40, 0, 25, 1, 0x3ffffff⟩
def CAL_STAT_CFG_base : Fld := ⟨0x1a00000, 8, 9, 31, 0x0⟩
def CAL_STAT_CFG_count : Fld := ⟨0x1a00000, 8, 40, 18, 0x0⟩
def MQ_CTL_steer_en : Fld := ⟨0x1800000, 64, 0, 1, 0x190⟩
def MQ_CTL_fallback_en : Fld := ⟨0x1800000, 64, 1, 1, 0x190⟩
def MQ_CTL_correct_en : Fld := ⟨0x1800000, 64, 2, 1, 0x190⟩
def MQ_CTL_keep_on_veto : Fld := ⟨0x1800000, 64, 3, 1, 0x190⟩
def MQ_CTL_storm_pct : Fld := ⟨0x1800000, 64, 4, 7, 0x190⟩
def MQ_FLAGS_recipe_flag : Fld := ⟨0x1800008, 64, 0, 16, 0x0⟩
def MQ_FLAGS_recipe_flag_en : Fld := ⟨0x1800008, 64, 16, 1, 0x0⟩
def MQ_FLAGS_storm_flag : Fld := ⟨0x1800008, 64, 32, 16, 0x0⟩
def MQ_FLAGS_storm_flag_en : Fld := ⟨0x1800008, 64, 48, 1, 0x0⟩
def MQ_LOG_CFG_base : Fld := ⟨0x1800010, 64, 12, 28, 0x0⟩
def MQ_LOG_CFG_size_log2 : Fld := ⟨0x1800010, 64, 40, 5, 0x0⟩
def MQ_LOG_PTR_head : Fld := ⟨0x1800018, 64, 0, 20, 0x0⟩
def MQ_LOG_PTR_tail : Fld := ⟨0x1800018, 64, 20, 20, 0x0⟩
def MQ_LOG_PTR_lost : Fld := ⟨0x1800018, 64, 40, 24, 0x0⟩
def MQ_STEP_STAT_layers_seen : Fld := ⟨0x1800020, 64, 0, 16, 0x0⟩
def MQ_STEP_STAT_layers_overflowed : Fld := ⟨0x1800020, 64, 16, 16, 0x0⟩
def MQ_STEP_STAT_layers_declared : Fld := ⟨0x1800020, 64, 32, 16, 0x0⟩
def MQ_STEP_STAT_storm : Fld := ⟨0x1800020, 64, 48, 1, 0x0⟩
def MQ_STEP_STAT_done : Fld := ⟨0x1800020, 64, 49, 1, 0x0⟩
def MQ_NF_TOTAL_nonfinite_total : Fld := ⟨0x1800028, 64, 0, 64, 0x0⟩
def MQ_POLICY_uf_promote : Fld := ⟨0x1801000, 8, 0, 16, 0xf140100028f0000⟩
def MQ_POLICY_uf_demote : Fld := ⟨0x1801000, 8, 16, 16, 0xf140100028f0000⟩
def MQ_POLICY_demote_steps : Fld := ⟨0x1801000, 8, 32, 16, 0xf140100028f0000⟩
def MQ_POLICY_decay_log2 : Fld := ⟨0x1801000, 8, 48, 4, 0xf140100028f0000⟩
def MQ_POLICY_ceil_fail_steps : Fld := ⟨0x1801000, 8, 52, 4, 0xf140100028f0000⟩
def MQ_POLICY_recipe_fmt : Fld := ⟨0x1801000, 8, 56, 4, 0xf140100028f0000⟩
def MQ_POLICY_sat_tol : Fld := ⟨0x1801000, 8, 60, 4, 0xf140100028f0000⟩
def CTX_CFG_part_mask : Fld := ⟨0x800000, 64, 0, 16, 0xfa0000000⟩
def CTX_CFG_prio : Fld := ⟨0x800000, 64, 16, 2, 0xfa0000000⟩
def CTX_CFG_interlude_only : Fld := ⟨0x800000, 64, 18, 1, 0xfa0000000⟩
def CTX_CFG_vf : Fld := ⟨0x800000, 64, 19, 6, 0xfa0000000⟩
def CTX_CFG_vf_bound : Fld := ⟨0x800000, 64, 25, 1, 0xfa0000000⟩
def CTX_CFG_slice_us : Fld := ⟨0x800000, 64, 26, 16, 0xfa0000000⟩
def CTX_QUOTA_tdt_base : Fld := ⟨0x800008, 64, 0, 17, 0x0⟩
def CTX_QUOTA_tdt_count : Fld := ⟨0x800008, 64, 32, 17, 0x0⟩
def CTX_FLG_RANGE_flag_base : Fld := ⟨0x800010, 64, 0, 16, 0x0⟩
def CTX_FLG_RANGE_flag_count : Fld := ⟨0x800010, 64, 32, 17, 0x0⟩
def CTX_PF_CFG_pf_region : Fld := ⟨0x800018, 64, 0, 10, 0x0⟩
def CTX_PF_CFG_pf_count : Fld := ⟨0x800018, 64, 10, 16, 0x0⟩
def CTX_PF_BASE_pf_off : Fld := ⟨0x800020, 64, 4, 36, 0x0⟩
def CTX_CTL_enable : Fld := ⟨0x800028, 64, 0, 1, 0x0⟩
def CTX_CTL_teardown : Fld := ⟨0x800028, 64, 1, 1, 0x0⟩
def CTX_STAT_state : Fld := ⟨0x800030, 64, 0, 2, 0x0⟩
def CTX_STAT_in_interlude : Fld := ⟨0x800030, 64, 2, 1, 0x0⟩
def CTX_STAT_gen : Fld := ⟨0x800030, 64, 16, 16, 0x0⟩
def CTX_STAT_last_status : Fld := ⟨0x800030, 64, 32, 16, 0x0⟩
def CTX_RGN_STAGE_data : Fld := ⟨0x801000, 8, 0, 64, 0x0⟩
def CTX_RGN_CMD_region : Fld := ⟨0x801020, 0, 0, 10, 0x0⟩
def CTX_RGN_CMD_ctx : Fld := ⟨0x801020, 0, 10, 6, 0x0⟩
def CTX_RGN_CMD_op : Fld := ⟨0x801020, 0, 16, 1, 0x0⟩
def CTX_RGN_STAT_busy : Fld := ⟨0x801028, 0, 0, 1, 0x0⟩
def CTX_RGN_STAT_status : Fld := ⟨0x801028, 0, 16, 16, 0x0⟩
def Q_CFG_enable : Fld := ⟨0xa00000, 64, 0, 1, 0x0⟩
def Q_CFG_stream_ver : Fld := ⟨0xa00000, 64, 1, 2, 0x0⟩
def Q_CFG_size_log2 : Fld := ⟨0xa00000, 64, 3, 5, 0x0⟩
def Q_CFG_part_mask : Fld := ⟨0xa00000, 64, 16, 16, 0x0⟩
def Q_CFG_region : Fld := ⟨0xa00000, 64, 32, 10, 0x0⟩
def Q_BASE_off : Fld := ⟨0xa00008, 64, 7, 33, 0x0⟩
def Q_STAT_state : Fld := ⟨0xa00010, 64, 0, 3, 0x0⟩
def Q_STAT_blocked_flag : Fld := ⟨0xa00010, 64, 16, 16, 0x0⟩
def Q_STAT_status : Fld := ⟨0xa00010, 64, 32, 16, 0x0⟩
def FLG_VAL_value : Fld := ⟨0xc00000, 8, 0, 64, 0x0⟩
def FLG_ADD_inc : Fld := ⟨0xc80000, 8, 0, 64, 0x0⟩
def TDT_WIN_SEL_die : Fld := ⟨0x1780000, 0, 0, 2, 0x0⟩
def TDT_STAGE_data : Fld := ⟨0x1780040, 8, 0, 64, 0x0⟩
def TDT_CMD_entry : Fld := ⟨0x1780080, 0, 0, 17, 0x0⟩
def TDT_CMD_STAT_busy : Fld := ⟨0x1780088, 0, 0, 1, 0x0⟩
def TDT_CMD_STAT_status : Fld := ⟨0x1780088, 0, 16, 16, 0x0⟩
def MEM_ZONE_kind : Fld := ⟨0x400000, 8, 0, 2, 0x40⟩
def MEM_ZONE_place : Fld := ⟨0x400000, 8, 2, 4, 0x40⟩
def MEM_ZONE_active_kind_valid : Fld := ⟨0x400000, 8, 6, 1, 0x40⟩
def MEM_ZONE_CTL_commit : Fld := ⟨0x400200, 0, 0, 1, 0x0⟩
def MEM_ZONE_CTL_busy : Fld := ⟨0x400200, 0, 1, 1, 0x0⟩
def MEM_ZONE_CTL_status : Fld := ⟨0x400200, 0, 16, 16, 0x0⟩
def MEM_SCRUB_CFG_interval_h : Fld := ⟨0x400208, 0, 0, 8, 0x118⟩
def MEM_SCRUB_CFG_enable : Fld := ⟨0x400208, 0, 8, 1, 0x118⟩
def MEM_ECC_CFG_ce_limit : Fld := ⟨0x400210, 0, 0, 32, 0x1000002710⟩
def MEM_ECC_CFG_ue_limit : Fld := ⟨0x400210, 0, 32, 16, 0x1000002710⟩
def MEM_BAR4_WIN_base : Fld := ⟨0x400218, 0, 20, 20, 0x0⟩
def MEM_STACK_STAT_temp_c : Fld := ⟨0x401000, 64, 0, 8, 0x0⟩
def MEM_STACK_STAT_level : Fld := ⟨0x401000, 64, 8, 3, 0x0⟩
def MEM_STACK_STAT_refresh_2x : Fld := ⟨0x401000, 64, 11, 1, 0x0⟩
def MEM_STACK_STAT_stack_fault : Fld := ⟨0x401000, 64, 12, 1, 0x0⟩
def MEM_STACK_STAT_gated : Fld := ⟨0x401000, 64, 13, 1, 0x0⟩
def MEM_ECC_CNT_ce : Fld := ⟨0x401008, 64, 0, 32, 0x0⟩
def MEM_ECC_CNT_ue : Fld := ⟨0x401008, 64, 32, 32, 0x0⟩
def MEM_ERR_ADDR_local : Fld := ⟨0x401010, 64, 0, 36, 0x0⟩
def MEM_ERR_ADDR_source : Fld := ⟨0x401010, 64, 36, 2, 0x0⟩
def MEM_ERR_ADDR_valid : Fld := ⟨0x401010, 64, 63, 1, 0x0⟩
def MEM_SCRUB_STAT_passes : Fld := ⟨0x401018, 64, 0, 32, 0x0⟩
def MEM_SCRUB_STAT_position : Fld := ⟨0x401018, 64, 32, 24, 0x0⟩
def MEM_SCRUB_STAT_late : Fld := ⟨0x401018, 64, 56, 1, 0x0⟩
def MEM_WASTE_bytes : Fld := ⟨0x401020, 64, 0, 64, 0x0⟩
def SC_CFG_atom_ways : Fld := ⟨0x600000, 64, 0, 3, 0x2⟩
def SC_ECC_CNT_ce : Fld := ⟨0x600008, 64, 0, 32, 0x0⟩
def SC_ECC_CNT_ue : Fld := ⟨0x600008, 64, 32, 32, 0x0⟩
def SC_ATOM_CNT_requests : Fld := ⟨0x600010, 64, 0, 64, 0x0⟩
def LNK_CFG_enable : Fld := ⟨0x2000000, 64, 0, 1, 0x44⟩
def LNK_CFG_max_mode : Fld := ⟨0x2000000, 64, 1, 2, 0x44⟩
def LNK_CFG_min_width : Fld := ⟨0x2000000, 64, 3, 2, 0x44⟩
def LNK_CFG_fence : Fld := ⟨0x2000000, 64, 5, 1, 0x44⟩
def LNK_CFG_auto_retrain : Fld := ⟨0x2000000, 64, 6, 1, 0x44⟩
def LNK_CTL_retrain : Fld := ⟨0x2000008, 64, 0, 1, 0x0⟩
def LNK_STAT_state : Fld := ⟨0x2000010, 64, 0, 3, 0x0⟩
def LNK_STAT_mode : Fld := ⟨0x2000010, 64, 3, 2, 0x0⟩
def LNK_STAT_no_peer : Fld := ⟨0x2000010, 64, 5, 1, 0x0⟩
def LNK_STAT_lane_mask : Fld := ⟨0x2000010, 64, 8, 8, 0x0⟩
def LNK_STAT_failed_mask : Fld := ⟨0x2000010, 64, 16, 8, 0x0⟩
def LNK_STAT_peer_addr : Fld := ⟨0x2000010, 64, 24, 24, 0x0⟩
def LNK_STAT_peer_port : Fld := ⟨0x2000010, 64, 48, 3, 0x0⟩
def LNK_STAT_peer_valid : Fld := ⟨0x2000010, 64, 51, 1, 0x0⟩
def LNK_ERR_crc_err : Fld := ⟨0x2000018, 64, 0, 24, 0x0⟩
def LNK_ERR_replays : Fld := ⟨0x2000018, 64, 24, 24, 0x0⟩
def LNK_ERR_fec_uncorr : Fld := ⟨0x2000018, 64, 48, 16, 0x0⟩
def LNK_DROP_route : Fld := ⟨0x2000020, 64, 0, 16, 0x0⟩
def LNK_DROP_misroute : Fld := ⟨0x2000020, 64, 16, 16, 0x0⟩
def LNK_DROP_epoch : Fld := ⟨0x2000020, 64, 32, 16, 0x0⟩
def LNK_DROP_down : Fld := ⟨0x2000020, 64, 48, 16, 0x0⟩
def LNK_LAT_tx_pipe_ns : Fld := ⟨0x2000028, 64, 0, 16, 0x0⟩
def LNK_LAT_rx_pipe_ns : Fld := ⟨0x2000028, 64, 16, 16, 0x0⟩
def LNK_VC_WEIGHT_w1 : Fld := ⟨0x2000400, 0, 8, 8, 0x10402020800⟩
def LNK_VC_WEIGHT_w2 : Fld := ⟨0x2000400, 0, 16, 8, 0x10402020800⟩
def LNK_VC_WEIGHT_w3 : Fld := ⟨0x2000400, 0, 24, 8, 0x10402020800⟩
def LNK_VC_WEIGHT_w4 : Fld := ⟨0x2000400, 0, 32, 8, 0x10402020800⟩
def LNK_VC_WEIGHT_w5 : Fld := ⟨0x2000400, 0, 40, 8, 0x10402020800⟩
def LNK_AXIS_VC_vc (a : Nat) : Fld := ⟨0x2000408, 0, 0 + 3 * a, 3, 0x249⟩
def LNK_PROBE_CFG_enable : Fld := ⟨0x2000410, 0, 0, 1, 0x14⟩
def LNK_PROBE_CFG_interval_log2 : Fld := ⟨0x2000410, 0, 1, 4, 0x14⟩
def LNK_PROBE_CFG_size_log2 : Fld := ⟨0x2000410, 0, 5, 5, 0x14⟩
def LNK_PROBE_CFG_base : Fld := ⟨0x2000410, 0, 12, 28, 0x14⟩
def LNK_PROBE_PTR_head : Fld := ⟨0x2000418, 0, 0, 20, 0x0⟩
def LNK_PROBE_PTR_tail : Fld := ⟨0x2000418, 0, 20, 20, 0x0⟩
def LNK_PROBE_PTR_lost : Fld := ⟨0x2000418, 0, 40, 24, 0x0⟩
def LNK_CTX_GEN_gen_wr : Fld := ⟨0x2000800, 8, 0, 16, 0x0⟩
def LNK_CTX_GEN_stale : Fld := ⟨0x2000800, 8, 32, 32, 0x0⟩
def RTE_SHAPE_ext_x : Fld := ⟨0x2400000, 0, 0, 7, 0xffe40204081⟩
def RTE_SHAPE_ext_y : Fld := ⟨0x2400000, 0, 7, 7, 0xffe40204081⟩
def RTE_SHAPE_ext_z : Fld := ⟨0x2400000, 0, 14, 7, 0xffe40204081⟩
def RTE_SHAPE_ext_w : Fld := ⟨0x2400000, 0, 21, 7, 0xffe40204081⟩
def RTE_SHAPE_order : Fld := ⟨0x2400000, 0, 28, 8, 0xffe40204081⟩
def RTE_SHAPE_root_prio : Fld := ⟨0x2400000, 0, 36, 8, 0xffe40204081⟩
def RTE_SELF_phys : Fld := ⟨0x2400008, 0, 0, 24, 0x0⟩
def RTE_SELF_logical : Fld := ⟨0x2400008, 0, 24, 24, 0x0⟩
def RTE_SELF_logical_valid : Fld := ⟨0x2400008, 0, 48, 1, 0x0⟩
def RTE_SELF_disc_state : Fld := ⟨0x2400008, 0, 49, 2, 0x0⟩
def RTE_EPOCH_epoch : Fld := ⟨0x2400010, 0, 0, 16, 0x0⟩
def RTE_EPOCH_auto_used : Fld := ⟨0x2400010, 0, 16, 6, 0x0⟩
def RTE_CMD_op : Fld := ⟨0x2400018, 0, 0, 2, 0x0⟩
def RTE_CMD_busy : Fld := ⟨0x2400018, 0, 2, 1, 0x0⟩
def RTE_CMD_status : Fld := ⟨0x2400018, 0, 16, 16, 0x0⟩
def RTE_PIN_pin_addr : Fld := ⟨0x2400020, 0, 0, 24, 0x0⟩
def RTE_PIN_pinned : Fld := ⟨0x2400020, 0, 24, 1, 0x0⟩
def RTE_REMAP_logical : Fld := ⟨0x2410000, 8, 0, 24, 0x0⟩
def RTE_REMAP_physical : Fld := ⟨0x2410000, 8, 24, 24, 0x0⟩
def RTE_REMAP_valid : Fld := ⟨0x2410000, 8, 48, 1, 0x0⟩
def RTE_DETOUR_addr : Fld := ⟨0x2420000, 8, 0, 24, 0x0⟩
def RTE_DETOUR_port : Fld := ⟨0x2420000, 8, 24, 3, 0x0⟩
def RTE_DETOUR_module : Fld := ⟨0x2420000, 8, 27, 1, 0x0⟩
def RTE_DETOUR_valid : Fld := ⟨0x2420000, 8, 28, 1, 0x0⟩
def RTE_DETOUR_auto : Fld := ⟨0x2420000, 8, 29, 1, 0x0⟩
def COL_STAT_opcode : Fld := ⟨0x1e00000, 8, 0, 8, 0x0⟩
def COL_STAT_ctx : Fld := ⟨0x1e00000, 8, 8, 6, 0x0⟩
def COL_STAT_axis : Fld := ⟨0x1e00000, 8, 14, 2, 0x0⟩
def COL_STAT_busy : Fld := ⟨0x1e00000, 8, 16, 1, 0x0⟩
def COL_STAT_waiting : Fld := ⟨0x1e00000, 8, 17, 1, 0x0⟩
def COL_STAT_stage : Fld := ⟨0x1e00000, 8, 18, 8, 0x0⟩
def COL_STAT_tag : Fld := ⟨0x1e00000, 8, 32, 32, 0x0⟩
def COL_QUEUE_pending : Fld := ⟨0x1e00040, 8, 0, 32, 0x0⟩
def UPD_CTL_norm_en : Fld := ⟨0x1c00000, 32, 0, 1, 0x1⟩
def UPD_SPAN_lo (a : Nat) : Fld := ⟨0x1c00008, 32, 0 + 16 * a, 6, 0x40004000400040⟩
def UPD_SPAN_len (a : Nat) : Fld := ⟨0x1c00008, 32, 6 + 16 * a, 7, 0x40004000400040⟩
def UPD_NORM_norm : Fld := ⟨0x1c00010, 32, 0, 32, 0x0⟩
def UPD_NORM_valid : Fld := ⟨0x1c00010, 32, 32, 1, 0x0⟩
def UPD_NORM_nonfinite : Fld := ⟨0x1c00010, 32, 33, 1, 0x0⟩
def UPD_NORM_clipped : Fld := ⟨0x1c00010, 32, 34, 1, 0x0⟩
def UPD_NORM_phase : Fld := ⟨0x1c00010, 32, 35, 2, 0x0⟩
def UPD_NORM_redo_layers : Fld := ⟨0x1c00010, 32, 40, 16, 0x0⟩
def UPD_ENG_STAT_busy : Fld := ⟨0x1c00800, 8, 0, 1, 0x0⟩
def UPD_ENG_STAT_pass : Fld := ⟨0x1c00800, 8, 1, 1, 0x0⟩
def UPD_ENG_STAT_ctx : Fld := ⟨0x1c00800, 8, 2, 6, 0x0⟩
def UPD_ENG_STAT_layer : Fld := ⟨0x1c00800, 8, 8, 16, 0x0⟩
def UPD_GROUP_data (k : Nat) : Fld := ⟨0x1c10000 + 8 * k, 32, 0, 64, 0x0⟩
def UPD_STREAM_data (k : Nat) : Fld := ⟨0x1c20000 + 8 * k, 32, 0, 64, 0x0⟩
def STEP_CFG_spike_pol : Fld := ⟨0x2c00000, 128, 0, 2, 0x40c0000000c81f55⟩
def STEP_CFG_nf_pol : Fld := ⟨0x2c00000, 128, 2, 2, 0x40c0000000c81f55⟩
def STEP_CFG_storm_pol : Fld := ⟨0x2c00000, 128, 4, 2, 0x40c0000000c81f55⟩
def STEP_CFG_clip_pol : Fld := ⟨0x2c00000, 128, 6, 2, 0x40c0000000c81f55⟩
def STEP_CFG_abandon_on_notice : Fld := ⟨0x2c00000, 128, 8, 1, 0x40c0000000c81f55⟩
def STEP_CFG_skip_on_abandon : Fld := ⟨0x2c00000, 128, 9, 1, 0x40c0000000c81f55⟩
def STEP_CFG_ema_log2 : Fld := ⟨0x2c00000, 128, 10, 4, 0x40c0000000c81f55⟩
def STEP_CFG_warmup : Fld := ⟨0x2c00000, 128, 16, 16, 0x40c0000000c81f55⟩
def STEP_CFG_z_max : Fld := ⟨0x2c00000, 128, 32, 32, 0x40c0000000c81f55⟩
def STEP_NF_LIMIT_nf_limit : Fld := ⟨0x2c00008, 128, 0, 64, 0x0⟩
def STEP_CTL_veto : Fld := ⟨0x2c00010, 128, 0, 1, 0x0⟩
def STEP_CTL_abandon : Fld := ⟨0x2c00010, 128, 1, 1, 0x0⟩
def STEP_CTL_close : Fld := ⟨0x2c00010, 128, 2, 1, 0x0⟩
def STEP_CTL_clear_halt : Fld := ⟨0x2c00010, 128, 3, 1, 0x0⟩
def STEP_STAT_state : Fld := ⟨0x2c00018, 128, 0, 3, 0x0⟩
def STEP_STAT_abandoned : Fld := ⟨0x2c00018, 128, 3, 1, 0x0⟩
def STEP_STAT_reexec : Fld := ⟨0x2c00018, 128, 4, 1, 0x0⟩
def STEP_STAT_outcome : Fld := ⟨0x2c00018, 128, 5, 2, 0x0⟩
def STEP_STAT_flip_wait : Fld := ⟨0x2c00018, 128, 7, 1, 0x0⟩
def STEP_STAT_cond : Fld := ⟨0x2c00018, 128, 8, 6, 0x0⟩
def STEP_STAT_cond_late : Fld := ⟨0x2c00018, 128, 14, 6, 0x0⟩
def STEP_STAT_verdict_fixed : Fld := ⟨0x2c00018, 128, 20, 1, 0x0⟩
def STEP_STAT_close_pending : Fld := ⟨0x2c00018, 128, 21, 1, 0x0⟩
def STEP_COMMITTED_step : Fld := ⟨0x2c00020, 128, 0, 64, 0x0⟩
def STEP_CUR_step : Fld := ⟨0x2c00028, 128, 0, 64, 0x0⟩
def STEP_SET_step : Fld := ⟨0x2c00030, 128, 0, 64, 0x0⟩
def STEP_LOSS_mu : Fld := ⟨0x2c00038, 128, 0, 32, 0x0⟩
def STEP_LOSS_var : Fld := ⟨0x2c00038, 128, 32, 32, 0x0⟩
def STEP_LOSS_CNT_n : Fld := ⟨0x2c00040, 128, 0, 16, 0x0⟩
def STEP_LAST_l : Fld := ⟨0x2c00048, 128, 0, 32, 0x0⟩
def STEP_LAST_z : Fld := ⟨0x2c00048, 128, 32, 32, 0x0⟩
def STEP_WAIT_flips_waited : Fld := ⟨0x2c00050, 128, 0, 32, 0x0⟩
def STEP_WAIT_NS_ns : Fld := ⟨0x2c00058, 128, 0, 64, 0x0⟩
def STEP_COUNTS_vetoed : Fld := ⟨0x2c00060, 128, 0, 32, 0x0⟩
def STEP_COUNTS_abandoned : Fld := ⟨0x2c00060, 128, 32, 32, 0x0⟩
def STEP_FLAGS_cond_flag : Fld := ⟨0x2c00068, 128, 0, 16, 0x0⟩
def STEP_FLAGS_cond_flag_en : Fld := ⟨0x2c00068, 128, 16, 1, 0x0⟩
def CAST_CFG_enable : Fld := ⟨0x2800000, 256, 0, 1, 0x80200006⟩
def CAST_CFG_hold : Fld := ⟨0x2800000, 256, 1, 1, 0x80200006⟩
def CAST_CFG_k_int : Fld := ⟨0x2800000, 256, 2, 16, 0x80200006⟩
def CAST_CFG_mirror_en : Fld := ⟨0x2800000, 256, 18, 1, 0x80200006⟩
def CAST_CFG_mirror_axis : Fld := ⟨0x2800000, 256, 19, 2, 0x80200006⟩
def CAST_CFG_mirror_dist : Fld := ⟨0x2800000, 256, 21, 6, 0x80200006⟩
def CAST_CFG_parity_en : Fld := ⟨0x2800000, 256, 27, 1, 0x80200006⟩
def CAST_CFG_parity_axis : Fld := ⟨0x2800000, 256, 28, 2, 0x80200006⟩
def CAST_CFG_parity_k : Fld := ⟨0x2800000, 256, 30, 5, 0x80200006⟩
def CAST_CFG_parity_lo : Fld := ⟨0x2800000, 256, 35, 6, 0x80200006⟩
def CAST_CFG_abandon_ms : Fld := ⟨0x2800000, 256, 41, 16, 0x80200006⟩
def CAST_LIST_region : Fld := ⟨0x2800008, 256, 0, 10, 0x0⟩
def CAST_LIST_count : Fld := ⟨0x2800008, 256, 10, 17, 0x0⟩
def CAST_LIST_off : Fld := ⟨0x2800008, 256, 27, 33, 0x0⟩
def CAST_STORE_region : Fld := ⟨0x2800010, 256, 0, 10, 0x0⟩
def CAST_STORE_off : Fld := ⟨0x2800010, 256, 10, 20, 0x0⟩
def CAST_SIZE_mirror_ext : Fld := ⟨0x2800018, 256, 0, 21, 0x4000000000000⟩
def CAST_SIZE_parity_ext : Fld := ⟨0x2800018, 256, 21, 21, 0x4000000000000⟩
def CAST_SIZE_rec_kib : Fld := ⟨0x2800018, 256, 42, 14, 0x4000000000000⟩
def CAST_SPAN_lo (a : Nat) : Fld := ⟨0x2800020, 256, 0 + 16 * a, 6, 0x40004000400040⟩
def CAST_SPAN_len (a : Nat) : Fld := ⟨0x2800020, 256, 6 + 16 * a, 7, 0x40004000400040⟩
def CAST_CMD_op : Fld := ⟨0x2800028, 256, 0, 2, 0x0⟩
def CAST_CMD_check_token : Fld := ⟨0x2800028, 256, 2, 1, 0x0⟩
def CAST_CMD_busy : Fld := ⟨0x2800028, 256, 3, 1, 0x0⟩
def CAST_CMD_blank : Fld := ⟨0x2800028, 256, 4, 1, 0x0⟩
def CAST_CMD_status : Fld := ⟨0x2800028, 256, 16, 16, 0x0⟩
def CAST_RESTORE_GEN_gen : Fld := ⟨0x2800030, 256, 0, 32, 0x0⟩
def CAST_GEN_gen_job : Fld := ⟨0x2800038, 256, 0, 32, 0x0⟩
def CAST_GEN_gen_drain : Fld := ⟨0x2800038, 256, 32, 32, 0x0⟩
def CAST_GEN_STEP_step : Fld := ⟨0x2800040, 256, 0, 64, 0x0⟩
def CAST_STAT_state : Fld := ⟨0x2800048, 256, 0, 2, 0x1000000000000⟩
def CAST_STAT_full_next : Fld := ⟨0x2800048, 256, 2, 1, 0x1000000000000⟩
def CAST_STAT_exposed : Fld := ⟨0x2800048, 256, 3, 1, 0x1000000000000⟩
def CAST_STAT_last_status : Fld := ⟨0x2800048, 256, 16, 16, 0x1000000000000⟩
def CAST_STAT_k_rec : Fld := ⟨0x2800048, 256, 48, 16, 0x1000000000000⟩
def CAST_COST_wait_ns : Fld := ⟨0x2800050, 256, 0, 64, 0x0⟩
def CAST_GENS_complete : Fld := ⟨0x2800058, 256, 0, 32, 0x0⟩
def CAST_GENS_abandoned : Fld := ⟨0x2800058, 256, 32, 32, 0x0⟩
def CAST_TOKEN_token (k : Nat) : Fld := ⟨0x2800060 + 8 * k, 256, 0, 64, 0x0⟩
def CAST_RATE_fleet_fph : Fld := ⟨0x2804000, 0, 0, 32, 0x0⟩
def CAST_POLICY_small_mib : Fld := ⟨0x2804008, 0, 0, 16, 0x4000040040⟩
def CAST_POLICY_big_gib : Fld := ⟨0x2804008, 0, 16, 16, 0x4000040040⟩
def CAST_POLICY_dirty_max : Fld := ⟨0x2804008, 0, 32, 8, 0x4000040040⟩
def FLT_SUMMARY_part_fault : Fld := ⟨0x50000, 0, 0, 16, 0x0⟩
def FLT_SUMMARY_port_down : Fld := ⟨0x50000, 0, 16, 8, 0x0⟩
def FLT_SUMMARY_module_failed : Fld := ⟨0x50000, 0, 24, 1, 0x0⟩
def FLT_SUMMARY_deadlock : Fld := ⟨0x50000, 0, 25, 1, 0x0⟩
def FLT_SUMMARY_timeout : Fld := ⟨0x50000, 0, 26, 1, 0x0⟩
def FLT_SUMMARY_log_lost : Fld := ⟨0x50000, 0, 27, 1, 0x0⟩
def FLT_IRQ_EN_en : Fld := ⟨0x50008, 0, 0, 28, 0x0⟩
def FLT_LOG_PTR_head : Fld := ⟨0x50010, 0, 0, 10, 0x0⟩
def FLT_LOG_PTR_tail : Fld := ⟨0x50010, 0, 16, 10, 0x0⟩
def FLT_LOG_PTR_lost : Fld := ⟨0x50010, 0, 32, 32, 0x0⟩
def FLT_RESET_key : Fld := ⟨0x50018, 0, 0, 16, 0x0⟩
def FLT_RESET_module : Fld := ⟨0x50018, 0, 16, 1, 0x0⟩
def FLT_RESET_CAUSE_cause : Fld := ⟨0x50020, 0, 0, 3, 0x0⟩
def FLT_PART_RESETS_total : Fld := ⟨0x50100, 8, 0, 8, 0x0⟩
def FLT_PART_RESETS_window : Fld := ⟨0x50100, 8, 8, 2, 0x0⟩
def FLT_PART_RESETS_last_status : Fld := ⟨0x50100, 8, 16, 16, 0x0⟩
def FLT_PEND_CTX_ctx : Fld := ⟨0x50200, 0, 0, 64, 0x0⟩
def FLT_PEND_BLK_part : Fld := ⟨0x50208, 0, 0, 16, 0x0⟩
def FLT_PEND_BLK_port : Fld := ⟨0x50208, 0, 16, 8, 0x0⟩
def FLT_PEND_Q_queue : Fld := ⟨0x50280, 8, 0, 64, 0x0⟩
def HANG_CTX_CFG_op_ms : Fld := ⟨0x60000, 8, 0, 14, 0x3e807d0⟩
def HANG_CTX_CFG_queue_ms : Fld := ⟨0x60000, 8, 16, 16, 0x3e807d0⟩
def HANG_CFG_enable : Fld := ⟨0x60400, 0, 0, 1, 0x1⟩
def HANG_CFG_dump_on_deadlock : Fld := ⟨0x60400, 0, 1, 1, 0x1⟩
def HANG_STAT_reports : Fld := ⟨0x60408, 0, 0, 32, 0x0⟩
def HANG_STAT_overflow : Fld := ⟨0x60408, 0, 32, 16, 0x0⟩
def HANG_RING_CFG_base : Fld := ⟨0x60410, 0, 12, 28, 0x0⟩
def HANG_RING_CFG_size_log2 : Fld := ⟨0x60410, 0, 40, 5, 0x0⟩
def HANG_RING_PTR_head : Fld := ⟨0x60418, 0, 0, 16, 0x0⟩
def HANG_RING_PTR_tail : Fld := ⟨0x60418, 0, 16, 16, 0x0⟩
def HANG_RING_PTR_lost : Fld := ⟨0x60418, 0, 32, 32, 0x0⟩
def DUMP_CTL_trigger : Fld := ⟨0x70000, 0, 0, 1, 0x2⟩
def DUMP_CTL_auto_en : Fld := ⟨0x70000, 0, 1, 1, 0x2⟩
def DUMP_CTL_discard : Fld := ⟨0x70000, 0, 2, 1, 0x2⟩
def DUMP_STAT_valid : Fld := ⟨0x70008, 0, 0, 1, 0x0⟩
def DUMP_STAT_busy : Fld := ⟨0x70008, 0, 1, 1, 0x0⟩
def DUMP_STAT_missed : Fld := ⟨0x70008, 0, 16, 16, 0x0⟩
def DUMP_STAT_sections : Fld := ⟨0x70008, 0, 32, 8, 0x0⟩
def DUMP_STAT_no_response : Fld := ⟨0x70008, 0, 40, 8, 0x0⟩
def DUMP_WIN_SEL_page : Fld := ⟨0x70010, 0, 0, 8, 0x0⟩
def PART_CTL_enable : Fld := ⟨0x200000, 64, 0, 1, 0x0⟩
def PART_CTL_reset : Fld := ⟨0x200000, 64, 1, 1, 0x0⟩
def PART_STAT_state : Fld := ⟨0x200008, 64, 0, 3, 0x0⟩
def PART_STAT_ucode_ver : Fld := ⟨0x200008, 64, 16, 16, 0x0⟩
def PART_UCODE_ADDR_base : Fld := ⟨0x201000, 0, 12, 28, 0x0⟩
def PART_UCODE_CMD_part : Fld := ⟨0x201008, 0, 0, 4, 0x0⟩
def PART_UCODE_CMD_load : Fld := ⟨0x201008, 0, 4, 1, 0x0⟩
def PART_UCODE_CMD_busy : Fld := ⟨0x201008, 0, 5, 1, 0x0⟩
def PART_UCODE_CMD_status : Fld := ⟨0x201008, 0, 16, 16, 0x0⟩
def TIME_NOW_ns : Fld := ⟨0x80000, 0, 0, 64, 0x0⟩
def CNT_CORE_count (k : Nat) : Fld := ⟨0x100000 + 8 * k, 256, 0, 64, 0x0⟩
def CNT_MOD_count : Fld := ⟨0x16c000, 8, 0, 64, 0x0⟩
def CNT_WIN_CFG_k : Fld := ⟨0x17f000, 0, 0, 5, 0x14⟩
def CNT_WIN_CFG_enable : Fld := ⟨0x17f000, 0, 5, 1, 0x14⟩
def CNT_WIN_CFG_groups : Fld := ⟨0x17f000, 0, 6, 7, 0x14⟩
def CNT_WIN_CFG_size_log2 : Fld := ⟨0x17f000, 0, 16, 5, 0x14⟩
def CNT_WIN_CFG_base : Fld := ⟨0x17f000, 0, 21, 28, 0x14⟩
def CNT_WIN_PTR_head : Fld := ⟨0x17f008, 0, 0, 16, 0x0⟩
def CNT_WIN_PTR_tail : Fld := ⟨0x17f008, 0, 16, 16, 0x0⟩
def CNT_WIN_PTR_skipped : Fld := ⟨0x17f008, 0, 32, 16, 0x0⟩
def TRC_CFG_type_mask : Fld := ⟨0x180000, 0, 0, 16, 0x0⟩
def TRC_CFG_enable : Fld := ⟨0x180000, 0, 16, 1, 0x0⟩
def TRC_CTX_MASK_ctx : Fld := ⟨0x180008, 0, 0, 64, 0x0⟩
def TRC_MARK_value : Fld := ⟨0x180010, 0, 0, 64, 0x0⟩
def TRC_FLUSH_buffers : Fld := ⟨0x180018, 0, 0, 17, 0x0⟩
def TRC_BUF_base : Fld := ⟨0x180100, 64, 20, 20, 0x0⟩
def TRC_BUF_size_log2 : Fld := ⟨0x180100, 64, 40, 5, 0x0⟩
def TRC_BUF_mode : Fld := ⟨0x180100, 64, 45, 1, 0x0⟩
def TRC_BUF_stream_en : Fld := ⟨0x180100, 64, 46, 1, 0x0⟩
def TRC_PTR_head : Fld := ⟨0x180108, 64, 0, 21, 0x0⟩
def TRC_PTR_tail : Fld := ⟨0x180108, 64, 21, 21, 0x0⟩
def TRC_PTR_lost : Fld := ⟨0x180108, 64, 42, 22, 0x0⟩
def TRC_HOST_ADDR_addr : Fld := ⟨0x180110, 64, 0, 64, 0x0⟩
def TRC_HOST_PTR_head : Fld := ⟨0x180118, 64, 0, 20, 0x0⟩
def TRC_HOST_PTR_tail : Fld := ⟨0x180118, 64, 20, 20, 0x0⟩
def TRC_HOST_PTR_size_log2 : Fld := ⟨0x180118, 64, 40, 5, 0x0⟩
def WATCH_ENTRY_data (k : Nat) : Fld := ⟨0x1c0000 + 8 * k, 32, 0, 64, 0x0⟩
def WATCH_STAT_copies : Fld := ⟨0x1c2000, 8, 0, 32, 0x0⟩
def WATCH_STAT_skipped : Fld := ⟨0x1c2000, 8, 32, 32, 0x0⟩
def TIME_STOP_AT_at : Fld := ⟨0x80010, 0, 0, 64, 0x0⟩
def TIME_STOP_CTL_arm : Fld := ⟨0x80018, 0, 0, 1, 0x0⟩
def TIME_STOP_CTL_cancel : Fld := ⟨0x80018, 0, 1, 1, 0x0⟩
def TIME_STOP_CTL_release : Fld := ⟨0x80018, 0, 2, 1, 0x0⟩
def TIME_STOP_STAT_state : Fld := ⟨0x80020, 0, 0, 2, 0x0⟩
def TIME_STOP_STAT_late : Fld := ⟨0x80020, 0, 2, 1, 0x0⟩
def TIME_STOP_TAKEN_taken : Fld := ⟨0x80028, 0, 0, 64, 0x0⟩
def TIME_STOP_RESUMED_resumed : Fld := ⟨0x80030, 0, 0, 64, 0x0⟩
def BOOT_STAT_step : Fld := ⟨0x30000, 0, 0, 4, 0x0⟩
def BOOT_STAT_ready : Fld := ⟨0x30000, 0, 4, 1, 0x0⟩
def BOOT_STAT_recovery : Fld := ⟨0x30000, 0, 5, 1, 0x0⟩
def BOOT_STAT_cal_valid : Fld := ⟨0x30000, 0, 6, 1, 0x0⟩
def BOOT_STAT_cfg_status : Fld := ⟨0x30000, 0, 8, 16, 0x0⟩
def BOOT_STAT_fw_ver : Fld := ⟨0x30000, 0, 32, 16, 0x0⟩
def BOOT_STAT_cfg_ver : Fld := ⟨0x30000, 0, 48, 16, 0x0⟩
def BOOT_IMG_ADDR_addr : Fld := ⟨0x30008, 0, 10, 30, 0x0⟩
def BOOT_CMD_op : Fld := ⟨0x30010, 0, 0, 3, 0x0⟩
def BOOT_CMD_persist : Fld := ⟨0x30010, 0, 3, 1, 0x0⟩
def BOOT_CMD_target : Fld := ⟨0x30010, 0, 4, 1, 0x0⟩
def BOOT_CMD_busy : Fld := ⟨0x30010, 0, 5, 1, 0x0⟩
def BOOT_CMD_status : Fld := ⟨0x30010, 0, 16, 16, 0x0⟩
def BOOT_CMD_flash_off : Fld := ⟨0x30010, 0, 32, 27, 0x0⟩
def BOOT_LEN_bytes : Fld := ⟨0x30018, 0, 0, 28, 0x0⟩
def SEC_STAT_presence : Fld := ⟨0x40000, 0, 0, 1, 0x0⟩
def SEC_STAT_window_s : Fld := ⟨0x40000, 0, 1, 10, 0x0⟩
def SEC_STAT_seal_intact : Fld := ⟨0x40000, 0, 11, 1, 0x0⟩
def SEC_STAT_seal_opened : Fld := ⟨0x40000, 0, 12, 1, 0x0⟩
def SEC_STAT_seal_opens : Fld := ⟨0x40000, 0, 13, 8, 0x0⟩
def SEC_STAT_owned : Fld := ⟨0x40000, 0, 21, 1, 0x0⟩
def SEC_STAT_debug_state : Fld := ⟨0x40000, 0, 22, 4, 0x0⟩
def SEC_STAT_perm_full : Fld := ⟨0x40000, 0, 26, 1, 0x0⟩
def SEC_STAT_min_svn : Fld := ⟨0x40000, 0, 32, 32, 0x0⟩
def SEC_ID_identity : Fld := ⟨0x40008, 0, 0, 64, 0x0⟩
def SEC_NONCE_nonce : Fld := ⟨0x40010, 8, 0, 64, 0x0⟩
def SEC_CMD_op : Fld := ⟨0x40020, 0, 0, 3, 0x0⟩
def SEC_CMD_busy : Fld := ⟨0x40020, 0, 3, 1, 0x0⟩
def SEC_CMD_status : Fld := ⟨0x40020, 0, 16, 16, 0x0⟩
def PCI_IDENT_vendor : Fld := ⟨0x3000000, 0, 0, 16, 0x30160000⟩
def PCI_IDENT_device : Fld := ⟨0x3000000, 0, 16, 16, 0x30160000⟩
def PCI_IDENT_slot_id : Fld := ⟨0x3000000, 0, 32, 6, 0x30160000⟩
def PCI_LINK_gen : Fld := ⟨0x3000008, 0, 0, 3, 0x0⟩
def PCI_LINK_width : Fld := ⟨0x3000008, 0, 3, 5, 0x0⟩
def PCI_LINK_flit : Fld := ⟨0x3000008, 0, 8, 1, 0x0⟩
def PCI_QHALT_halted : Fld := ⟨0x3000100, 8, 0, 64, 0x0⟩
def PWR_LIMIT_watts : Fld := ⟨0x10000, 0, 0, 12, 0xbb8⟩
def PWR_MS_CTL_target : Fld := ⟨0x10008, 0, 0, 2, 0x0⟩
def PWR_MS_CTL_state : Fld := ⟨0x10008, 0, 2, 2, 0x0⟩
def PWR_MS_CTL_busy : Fld := ⟨0x10008, 0, 4, 1, 0x0⟩
def PWR_MS_CTL_pending : Fld := ⟨0x10008, 0, 5, 1, 0x0⟩
def PWR_MS_CTL_status : Fld := ⟨0x10008, 0, 16, 16, 0x0⟩
def PWR_IDLE_CFG_cg_us : Fld := ⟨0x10010, 0, 0, 16, 0x1000a000a⟩
def PWR_IDLE_CFG_pg_ms : Fld := ⟨0x10010, 0, 16, 16, 0x1000a000a⟩
def PWR_IDLE_CFG_gate_en : Fld := ⟨0x10010, 0, 32, 1, 0x1000a000a⟩
def PWR_IN_volts_10mv : Fld := ⟨0x10018, 0, 0, 16, 0x0⟩
def PWR_IN_amps_10ma : Fld := ⟨0x10018, 0, 16, 16, 0x0⟩
def PWR_IN_watts : Fld := ⟨0x10018, 0, 32, 16, 0x0⟩
def PWR_IN_eff_limit : Fld := ⟨0x10018, 0, 48, 16, 0x0⟩
def PWR_COOL_flow_ml : Fld := ⟨0x10020, 0, 0, 16, 0x0⟩
def PWR_COOL_inlet_c : Fld := ⟨0x10020, 0, 16, 8, 0x0⟩
def PWR_COOL_outlet_c : Fld := ⟨0x10020, 0, 24, 8, 0x0⟩
def PWR_TEMP_die_c (a : Nat) : Fld := ⟨0x10028, 0, 0 + 8 * a, 8, 0x0⟩
def PWR_TEMP_stack_c : Fld := ⟨0x10028, 0, 48, 8, 0x0⟩
def PWR_TEMP_stack_id : Fld := ⟨0x10028, 0, 56, 4, 0x0⟩
def PWR_PART_STAT_gate : Fld := ⟨0x10100, 8, 0, 2, 0x0⟩
def CLK_PCLK_mhz : Fld := ⟨0x20000, 8, 0, 10, 0x352d4800⟩
def CLK_PCLK_power_mhz : Fld := ⟨0x20000, 8, 10, 10, 0x352d4800⟩
def CLK_PCLK_thermal_mhz : Fld := ⟨0x20000, 8, 20, 10, 0x352d4800⟩
def CLK_STAT_ref_ok : Fld := ⟨0x20100, 0, 0, 1, 0x0⟩
def CLK_STAT_pcie_refclk : Fld := ⟨0x20100, 0, 1, 1, 0x0⟩
def CLK_STAT_pclk_lock : Fld := ⟨0x20100, 0, 2, 16, 0x0⟩
def CLK_STAT_fclk_lock : Fld := ⟨0x20100, 0, 18, 4, 0x0⟩
def CLK_STAT_xclk_lock : Fld := ⟨0x20100, 0, 22, 1, 0x0⟩
def CLK_STAT_eclk_lock : Fld := ⟨0x20100, 0, 23, 1, 0x0⟩

end F

namespace R

def GEO_IDENT : Reg := ⟨0x0, 0, 1, 0, 1, 8, 0x10000003016, 0x0, 0x0, 0xffff000000000000⟩
def GEO_COUNT : Reg := ⟨0x8, 0, 1, 0, 1, 8, 0x88402020406c1024, 0x0, 0x0, 0x0⟩
def GEO_MEM : Reg := ⟨0x10, 0, 1, 0, 1, 8, 0x828400800180040, 0x0, 0x0, 0x0⟩
def GEO_TAB0 : Reg := ⟨0x18, 0, 1, 0, 1, 8, 0x400400104001e000, 0x0, 0x0, 0x0⟩
def GEO_TAB1 : Reg := ⟨0x20, 0, 1, 0, 1, 8, 0x100100000010000, 0x0, 0x0, 0x0⟩
def GEO_TAB2 : Reg := ⟨0x28, 0, 1, 0, 1, 8, 0x288010010000100, 0x0, 0x0, 0xf000000000000000⟩
def GEO_CLOCK : Reg := ⟨0x30, 0, 1, 0, 1, 8, 0x64004b0012c0352, 0x0, 0x0, 0x0⟩
def GEO_AVAIL : Reg := ⟨0x38, 0, 1, 0, 1, 4, 0x0, 0x0, 0x0, 0xff000000⟩
def GEO_FEAT : Reg := ⟨0x40, 0, 1, 0, 1, 8, 0x3ffffff, 0x0, 0x0, 0xfffffffffc000000⟩
def CAL_STAT_CFG : Reg := ⟨0x1a00000, 8, 64, 0, 1, 8, 0x0, 0x3fffffffffffe00, 0x0, 0xfc000000000001ff⟩
def MQ_CTL : Reg := ⟨0x1800000, 64, 64, 0, 1, 4, 0x190, 0x7ff, 0x0, 0xfffff800⟩
def MQ_FLAGS : Reg := ⟨0x1800008, 64, 64, 0, 1, 8, 0x0, 0x1ffff0001ffff, 0x0, 0xfffe0000fffe0000⟩
def MQ_LOG_CFG : Reg := ⟨0x1800010, 64, 64, 0, 1, 8, 0x0, 0x1ffffffff000, 0x0, 0xffffe00000000fff⟩
def MQ_LOG_PTR : Reg := ⟨0x1800018, 64, 64, 0, 1, 8, 0x0, 0xfffff00000, 0x0, 0x0⟩
def MQ_STEP_STAT : Reg := ⟨0x1800020, 64, 64, 0, 1, 8, 0x0, 0x0, 0x0, 0xfffc000000000000⟩
def MQ_NF_TOTAL : Reg := ⟨0x1800028, 64, 64, 0, 1, 8, 0x0, 0x0, 0x0, 0x0⟩
def MQ_POLICY : Reg := ⟨0x1801000, 8, 256, 0, 1, 8, 0xf140100028f0000, 0xffffffffffffffff, 0x0, 0x0⟩
def CTX_CFG : Reg := ⟨0x800000, 64, 64, 0, 1, 8, 0xfa0000000, 0x3ffffffffff, 0x0, 0xfffffc0000000000⟩
def CTX_QUOTA : Reg := ⟨0x800008, 64, 64, 0, 1, 8, 0x0, 0x1ffff0001ffff, 0x0, 0xfffe0000fffe0000⟩
def CTX_FLG_RANGE : Reg := ⟨0x800010, 64, 64, 0, 1, 8, 0x0, 0x1ffff0000ffff, 0x0, 0xfffe0000ffff0000⟩
def CTX_PF_CFG : Reg := ⟨0x800018, 64, 64, 0, 1, 8, 0x0, 0x3ffffff, 0x0, 0xfffffffffc000000⟩
def CTX_PF_BASE : Reg := ⟨0x800020, 64, 64, 0, 1, 8, 0x0, 0xfffffffff0, 0x0, 0xffffff000000000f⟩
def CTX_CTL : Reg := ⟨0x800028, 64, 64, 0, 1, 8, 0x0, 0x0, 0x0, 0xfffffffffffffffc⟩
def CTX_STAT : Reg := ⟨0x800030, 64, 64, 0, 1, 8, 0x0, 0x0, 0x0, 0xffff00000000fff8⟩
def CTX_RGN_STAGE : Reg := ⟨0x801000, 8, 4, 0, 1, 8, 0x0, 0xffffffffffffffff, 0x0, 0x0⟩
def CTX_RGN_CMD : Reg := ⟨0x801020, 0, 1, 0, 1, 8, 0x0, 0x0, 0x0, 0xfffffffffffe0000⟩
def CTX_RGN_STAT : Reg := ⟨0x801028, 0, 1, 0, 1, 8, 0x0, 0x0, 0x0, 0xffffffff0000fffe⟩
def Q_CFG : Reg := ⟨0xa00000, 64, 1024, 0, 1, 8, 0x0, 0x3ffffff00ff, 0x0, 0xfffffc000000ff00⟩
def Q_BASE : Reg := ⟨0xa00008, 64, 1024, 0, 1, 8, 0x0, 0xffffffff80, 0x0, 0xffffff000000007f⟩
def Q_STAT : Reg := ⟨0xa00010, 64, 1024, 0, 1, 8, 0x0, 0x0, 0x0, 0xffff00000000fff8⟩
def FLG_VAL : Reg := ⟨0xc00000, 8, 65536, 0, 1, 8, 0x0, 0xffffffffffffffff, 0x0, 0x0⟩
def FLG_ADD : Reg := ⟨0xc80000, 8, 65536, 0, 1, 8, 0x0, 0x0, 0x0, 0x0⟩
def TDT_WIN_SEL : Reg := ⟨0x1780000, 0, 1, 0, 1, 8, 0x0, 0x3, 0x0, 0xfffffffffffffffc⟩
def TDT_STAGE : Reg := ⟨0x1780040, 8, 8, 0, 1, 8, 0x0, 0xffffffffffffffff, 0x0, 0x0⟩
def TDT_CMD : Reg := ⟨0x1780080, 0, 1, 0, 1, 8, 0x0, 0x0, 0x0, 0xfffffffffffe0000⟩
def TDT_CMD_STAT : Reg := ⟨0x1780088, 0, 1, 0, 1, 8, 0x0, 0x0, 0x0, 0xffffffff0000fffe⟩
def MEM_ZONE : Reg := ⟨0x400000, 8, 64, 0, 1, 8, 0x40, 0x3f, 0x0, 0xffffffffffffff80⟩
def MEM_ZONE_CTL : Reg := ⟨0x400200, 0, 1, 0, 1, 8, 0x0, 0x0, 0x0, 0xffffffff0000fffc⟩
def MEM_SCRUB_CFG : Reg := ⟨0x400208, 0, 1, 0, 1, 4, 0x118, 0x1ff, 0x0, 0xfffffe00⟩
def MEM_ECC_CFG : Reg := ⟨0x400210, 0, 1, 0, 1, 8, 0x1000002710, 0xffffffffffff, 0x0, 0xffff000000000000⟩
def MEM_BAR4_WIN : Reg := ⟨0x400218, 0, 1, 0, 1, 8, 0x0, 0xfffff00000, 0x0, 0xffffff00000fffff⟩
def MEM_STACK_STAT : Reg := ⟨0x401000, 64, 16, 0, 1, 4, 0x0, 0x0, 0x0, 0xffffc000⟩
def MEM_ECC_CNT : Reg := ⟨0x401008, 64, 16, 0, 1, 8, 0x0, 0x0, 0x0, 0x0⟩
def MEM_ERR_ADDR : Reg := ⟨0x401010, 64, 16, 0, 1, 8, 0x0, 0x0, 0x8000000000000000, 0x7fffffc000000000⟩
def MEM_SCRUB_STAT : Reg := ⟨0x401018, 64, 16, 0, 1, 8, 0x0, 0x0, 0x100000000000000, 0xfe00000000000000⟩
def MEM_WASTE : Reg := ⟨0x401020, 64, 16, 0, 1, 8, 0x0, 0x0, 0x0, 0x0⟩
def SC_CFG : Reg := ⟨0x600000, 64, 16, 0, 1, 4, 0x2, 0x7, 0x0, 0xfffffff8⟩
def SC_ECC_CNT : Reg := ⟨0x600008, 64, 16, 0, 1, 8, 0x0, 0x0, 0x0, 0x0⟩
def SC_ATOM_CNT : Reg := ⟨0x600010, 64, 16, 0, 1, 8, 0x0, 0x0, 0x0, 0x0⟩
def LNK_CFG : Reg := ⟨0x2000000, 64, 8, 0, 1, 4, 0x44, 0x7f, 0x0, 0xffffff80⟩
def LNK_CTL : Reg := ⟨0x2000008, 64, 8, 0, 1, 4, 0x0, 0x0, 0x0, 0xfffffffe⟩
def LNK_STAT : Reg := ⟨0x2000010, 64, 8, 0, 1, 8, 0x0, 0x0, 0x0, 0xfff00000000000c0⟩
def LNK_ERR : Reg := ⟨0x2000018, 64, 8, 0, 1, 8, 0x0, 0x0, 0x0, 0x0⟩
def LNK_DROP : Reg := ⟨0x2000020, 64, 8, 0, 1, 8, 0x0, 0x0, 0x0, 0x0⟩
def LNK_LAT : Reg := ⟨0x2000028, 64, 8, 0, 1, 4, 0x0, 0x0, 0x0, 0x0⟩
def LNK_VC_WEIGHT : Reg := ⟨0x2000400, 0, 1, 0, 1, 8, 0x10402020800, 0xffffffffff00, 0x0, 0xffff0000000000ff⟩
def LNK_AXIS_VC : Reg := ⟨0x2000408, 0, 1, 0, 1, 4, 0x249, 0xfff, 0x0, 0xfffff000⟩
def LNK_PROBE_CFG : Reg := ⟨0x2000410, 0, 1, 0, 1, 8, 0x14, 0xfffffff3ff, 0x0, 0xffffff0000000c00⟩
def LNK_PROBE_PTR : Reg := ⟨0x2000418, 0, 1, 0, 1, 8, 0x0, 0xfffff00000, 0x0, 0x0⟩
def LNK_CTX_GEN : Reg := ⟨0x2000800, 8, 64, 0, 1, 8, 0x0, 0x0, 0x0, 0xffff0000⟩
def RTE_SHAPE : Reg := ⟨0x2400000, 0, 1, 0, 1, 8, 0xffe40204081, 0x0, 0x0, 0xfffff00000000000⟩
def RTE_SELF : Reg := ⟨0x2400008, 0, 1, 0, 1, 8, 0x0, 0x0, 0x0, 0xfff8000000000000⟩
def RTE_EPOCH : Reg := ⟨0x2400010, 0, 1, 0, 1, 8, 0x0, 0x0, 0x0, 0xffffffffffc00000⟩
def RTE_CMD : Reg := ⟨0x2400018, 0, 1, 0, 1, 8, 0x0, 0x0, 0x0, 0xffffffff0000fff8⟩
def RTE_PIN : Reg := ⟨0x2400020, 0, 1, 0, 1, 4, 0x0, 0x0, 0x0, 0xfe000000⟩
def RTE_REMAP : Reg := ⟨0x2410000, 8, 4096, 0, 1, 8, 0x0, 0x1ffffffffffff, 0x0, 0xfffe000000000000⟩
def RTE_DETOUR : Reg := ⟨0x2420000, 8, 256, 0, 1, 8, 0x0, 0x1fffffff, 0x0, 0xffffffffc0000000⟩
def COL_STAT : Reg := ⟨0x1e00000, 8, 8, 0, 1, 8, 0x0, 0x0, 0x0, 0xfc000000⟩
def COL_QUEUE : Reg := ⟨0x1e00040, 8, 2, 0, 1, 8, 0x0, 0x0, 0x0, 0xffffffff00000000⟩
def UPD_CTL : Reg := ⟨0x1c00000, 32, 64, 0, 1, 4, 0x1, 0x1, 0x0, 0xfffffffe⟩
def UPD_SPAN : Reg := ⟨0x1c00008, 32, 64, 0, 1, 8, 0x40004000400040, 0x1fff1fff1fff1fff, 0x0, 0xe000e000e000e000⟩
def UPD_NORM : Reg := ⟨0x1c00010, 32, 64, 0, 1, 8, 0x0, 0x0, 0x0, 0xff0000e000000000⟩
def UPD_ENG_STAT : Reg := ⟨0x1c00800, 8, 8, 0, 1, 8, 0x0, 0x0, 0x0, 0xffffffffff000000⟩
def UPD_GROUP : Reg := ⟨0x1c10000, 32, 256, 8, 4, 8, 0x0, 0x0, 0x0, 0x0⟩
def UPD_STREAM : Reg := ⟨0x1c20000, 32, 4096, 8, 4, 8, 0x0, 0x0, 0x0, 0x0⟩
def STEP_CFG : Reg := ⟨0x2c00000, 128, 64, 0, 1, 8, 0x40c0000000c81f55, 0xffffffffffff3fff, 0x0, 0xc000⟩
def STEP_NF_LIMIT : Reg := ⟨0x2c00008, 128, 64, 0, 1, 8, 0x0, 0xffffffffffffffff, 0x0, 0x0⟩
def STEP_CTL : Reg := ⟨0x2c00010, 128, 64, 0, 1, 4, 0x0, 0x0, 0x0, 0xfffffff0⟩
def STEP_STAT : Reg := ⟨0x2c00018, 128, 64, 0, 1, 8, 0x0, 0x0, 0x0, 0xffffffffffc00000⟩
def STEP_COMMITTED : Reg := ⟨0x2c00020, 128, 64, 0, 1, 8, 0x0, 0x0, 0x0, 0x0⟩
def STEP_CUR : Reg := ⟨0x2c00028, 128, 64, 0, 1, 8, 0x0, 0x0, 0x0, 0x0⟩
def STEP_SET : Reg := ⟨0x2c00030, 128, 64, 0, 1, 8, 0x0, 0x0, 0x0, 0x0⟩
def STEP_LOSS : Reg := ⟨0x2c00038, 128, 64, 0, 1, 8, 0x0, 0xffffffffffffffff, 0x0, 0x0⟩
def STEP_LOSS_CNT : Reg := ⟨0x2c00040, 128, 64, 0, 1, 4, 0x0, 0xffff, 0x0, 0xffff0000⟩
def STEP_LAST : Reg := ⟨0x2c00048, 128, 64, 0, 1, 8, 0x0, 0x0, 0x0, 0x0⟩
def STEP_WAIT : Reg := ⟨0x2c00050, 128, 64, 0, 1, 8, 0x0, 0x0, 0x0, 0xffffffff00000000⟩
def STEP_WAIT_NS : Reg := ⟨0x2c00058, 128, 64, 0, 1, 8, 0x0, 0x0, 0x0, 0x0⟩
def STEP_COUNTS : Reg := ⟨0x2c00060, 128, 64, 0, 1, 8, 0x0, 0x0, 0x0, 0x0⟩
def STEP_FLAGS : Reg := ⟨0x2c00068, 128, 64, 0, 1, 4, 0x0, 0x1ffff, 0x0, 0xfffe0000⟩
def CAST_CFG : Reg := ⟨0x2800000, 256, 64, 0, 1, 8, 0x80200006, 0x1ffffffffffffff, 0x0, 0xfe00000000000000⟩
def CAST_LIST : Reg := ⟨0x2800008, 256, 64, 0, 1, 8, 0x0, 0xfffffffffffffff, 0x0, 0xf000000000000000⟩
def CAST_STORE : Reg := ⟨0x2800010, 256, 64, 0, 1, 8, 0x0, 0x3fffffff, 0x0, 0xffffffffc0000000⟩
def CAST_SIZE : Reg := ⟨0x2800018, 256, 64, 0, 1, 8, 0x4000000000000, 0xffffffffffffff, 0x0, 0xff00000000000000⟩
def CAST_SPAN : Reg := ⟨0x2800020, 256, 64, 0, 1, 8, 0x40004000400040, 0x1fff1fff1fff1fff, 0x0, 0xe000e000e000e000⟩
def CAST_CMD : Reg := ⟨0x2800028, 256, 64, 0, 1, 8, 0x0, 0x0, 0x0, 0xffffffff0000ffe0⟩
def CAST_RESTORE_GEN : Reg := ⟨0x2800030, 256, 64, 0, 1, 4, 0x0, 0xffffffff, 0x0, 0x0⟩
def CAST_GEN : Reg := ⟨0x2800038, 256, 64, 0, 1, 8, 0x0, 0x0, 0x0, 0x0⟩
def CAST_GEN_STEP : Reg := ⟨0x2800040, 256, 64, 0, 1, 8, 0x0, 0x0, 0x0, 0x0⟩
def CAST_STAT : Reg := ⟨0x2800048, 256, 64, 0, 1, 8, 0x1000000000000, 0x0, 0x0, 0xffff0000fff0⟩
def CAST_COST : Reg := ⟨0x2800050, 256, 64, 0, 1, 8, 0x0, 0x0, 0x0, 0x0⟩
def CAST_GENS : Reg := ⟨0x2800058, 256, 64, 0, 1, 8, 0x0, 0x0, 0x0, 0x0⟩
def CAST_TOKEN : Reg := ⟨0x2800060, 256, 64, 8, 4, 8, 0x0, 0xffffffffffffffff, 0x0, 0x0⟩
def CAST_RATE : Reg := ⟨0x2804000, 0, 1, 0, 1, 8, 0x0, 0xffffffff, 0x0, 0xffffffff00000000⟩
def CAST_POLICY : Reg := ⟨0x2804008, 0, 1, 0, 1, 8, 0x4000040040, 0xffffffffff, 0x0, 0xffffff0000000000⟩
def FLT_SUMMARY : Reg := ⟨0x50000, 0, 1, 0, 1, 8, 0x0, 0x0, 0xeffffff, 0xfffffffff0000000⟩
def FLT_IRQ_EN : Reg := ⟨0x50008, 0, 1, 0, 1, 4, 0x0, 0xfffffff, 0x0, 0xf0000000⟩
def FLT_LOG_PTR : Reg := ⟨0x50010, 0, 1, 0, 1, 8, 0x0, 0x3ff0000, 0x0, 0xfc00fc00⟩
def FLT_RESET : Reg := ⟨0x50018, 0, 1, 0, 1, 4, 0x0, 0x0, 0x0, 0xfffe0000⟩
def FLT_RESET_CAUSE : Reg := ⟨0x50020, 0, 1, 0, 1, 4, 0x0, 0x0, 0x0, 0xfffffff8⟩
def FLT_PART_RESETS : Reg := ⟨0x50100, 8, 16, 0, 1, 4, 0x0, 0x0, 0x0, 0xfc00⟩
def FLT_PEND_CTX : Reg := ⟨0x50200, 0, 1, 0, 1, 8, 0x0, 0x0, 0x0, 0x0⟩
def FLT_PEND_BLK : Reg := ⟨0x50208, 0, 1, 0, 1, 4, 0x0, 0x0, 0x0, 0xff000000⟩
def FLT_PEND_Q : Reg := ⟨0x50280, 8, 16, 0, 1, 8, 0x0, 0x0, 0x0, 0x0⟩
def HANG_CTX_CFG : Reg := ⟨0x60000, 8, 64, 0, 1, 8, 0x3e807d0, 0xffff3fff, 0x0, 0xffffffff0000c000⟩
def HANG_CFG : Reg := ⟨0x60400, 0, 1, 0, 1, 4, 0x1, 0x3, 0x0, 0xfffffffc⟩
def HANG_STAT : Reg := ⟨0x60408, 0, 1, 0, 1, 8, 0x0, 0x0, 0x0, 0xffff000000000000⟩
def HANG_RING_CFG : Reg := ⟨0x60410, 0, 1, 0, 1, 8, 0x0, 0x1ffffffff000, 0x0, 0xffffe00000000fff⟩
def HANG_RING_PTR : Reg := ⟨0x60418, 0, 1, 0, 1, 8, 0x0, 0xffff0000, 0x0, 0x0⟩
def DUMP_CTL : Reg := ⟨0x70000, 0, 1, 0, 1, 4, 0x2, 0x2, 0x0, 0xfffffff8⟩
def DUMP_STAT : Reg := ⟨0x70008, 0, 1, 0, 1, 8, 0x0, 0x0, 0x0, 0xffff00000000fffc⟩
def DUMP_WIN_SEL : Reg := ⟨0x70010, 0, 1, 0, 1, 4, 0x0, 0xff, 0x0, 0xffffff00⟩
def PART_CTL : Reg := ⟨0x200000, 64, 16, 0, 1, 4, 0x0, 0x1, 0x0, 0xfffffffc⟩
def PART_STAT : Reg := ⟨0x200008, 64, 16, 0, 1, 8, 0x0, 0x0, 0x0, 0xffffffff0000fff8⟩
def PART_UCODE_ADDR : Reg := ⟨0x201000, 0, 1, 0, 1, 8, 0x0, 0xfffffff000, 0x0, 0xffffff0000000fff⟩
def PART_UCODE_CMD : Reg := ⟨0x201008, 0, 1, 0, 1, 4, 0x0, 0x0, 0x0, 0xffc0⟩
def TIME_NOW : Reg := ⟨0x80000, 0, 1, 0, 1, 8, 0x0, 0x0, 0x0, 0x0⟩
def CNT_CORE : Reg := ⟨0x100000, 256, 1728, 8, 32, 8, 0x0, 0x0, 0x0, 0x0⟩
def CNT_MOD : Reg := ⟨0x16c000, 8, 888, 0, 1, 8, 0x0, 0x0, 0x0, 0x0⟩
def CNT_WIN_CFG : Reg := ⟨0x17f000, 0, 1, 0, 1, 8, 0x14, 0x1ffffffff1fff, 0x0, 0xfffe00000000e000⟩
def CNT_WIN_PTR : Reg := ⟨0x17f008, 0, 1, 0, 1, 8, 0x0, 0xffff0000, 0x0, 0xffff000000000000⟩
def TRC_CFG : Reg := ⟨0x180000, 0, 1, 0, 1, 8, 0x0, 0x1fffe, 0x0, 0xfffffffffffe0001⟩
def TRC_CTX_MASK : Reg := ⟨0x180008, 0, 1, 0, 1, 8, 0x0, 0xffffffffffffffff, 0x0, 0x0⟩
def TRC_MARK : Reg := ⟨0x180010, 0, 1, 0, 1, 8, 0x0, 0x0, 0x0, 0x0⟩
def TRC_FLUSH : Reg := ⟨0x180018, 0, 1, 0, 1, 4, 0x0, 0x0, 0x0, 0xfffe0000⟩
def TRC_BUF : Reg := ⟨0x180100, 64, 17, 0, 1, 8, 0x0, 0x7ffffff00000, 0x0, 0xffff8000000fffff⟩
def TRC_PTR : Reg := ⟨0x180108, 64, 17, 0, 1, 8, 0x0, 0x3ffffe00000, 0x0, 0x0⟩
def TRC_HOST_ADDR : Reg := ⟨0x180110, 64, 17, 0, 1, 8, 0x0, 0xfffffffffffff000, 0x0, 0xfff⟩
def TRC_HOST_PTR : Reg := ⟨0x180118, 64, 17, 0, 1, 8, 0x0, 0x1ffffff00000, 0x0, 0xffffe00000000000⟩
def WATCH_ENTRY : Reg := ⟨0x1c0000, 32, 256, 8, 4, 8, 0x0, 0x0, 0x0, 0x0⟩
def WATCH_STAT : Reg := ⟨0x1c2000, 8, 256, 0, 1, 8, 0x0, 0x0, 0x0, 0x0⟩
def TIME_STOP_AT : Reg := ⟨0x80010, 0, 1, 0, 1, 8, 0x0, 0xffffffffffffffff, 0x0, 0x0⟩
def TIME_STOP_CTL : Reg := ⟨0x80018, 0, 1, 0, 1, 4, 0x0, 0x0, 0x0, 0xfffffff8⟩
def TIME_STOP_STAT : Reg := ⟨0x80020, 0, 1, 0, 1, 8, 0x0, 0x0, 0x0, 0xfffffffffffffff8⟩
def TIME_STOP_TAKEN : Reg := ⟨0x80028, 0, 1, 0, 1, 8, 0x0, 0x0, 0x0, 0x0⟩
def TIME_STOP_RESUMED : Reg := ⟨0x80030, 0, 1, 0, 1, 8, 0x0, 0x0, 0x0, 0x0⟩
def BOOT_STAT : Reg := ⟨0x30000, 0, 1, 0, 1, 8, 0x0, 0x0, 0x0, 0xff000080⟩
def BOOT_IMG_ADDR : Reg := ⟨0x30008, 0, 1, 0, 1, 8, 0x0, 0xfffffffc00, 0x0, 0xffffff00000003ff⟩
def BOOT_CMD : Reg := ⟨0x30010, 0, 1, 0, 1, 8, 0x0, 0x0, 0x0, 0xf80000000000ffc0⟩
def BOOT_LEN : Reg := ⟨0x30018, 0, 1, 0, 1, 4, 0x0, 0xfffffff, 0x0, 0xf0000000⟩
def SEC_STAT : Reg := ⟨0x40000, 0, 1, 0, 1, 8, 0x0, 0x0, 0x0, 0xf8000000⟩
def SEC_ID : Reg := ⟨0x40008, 0, 1, 0, 1, 8, 0x0, 0x0, 0x0, 0x0⟩
def SEC_NONCE : Reg := ⟨0x40010, 8, 2, 0, 1, 8, 0x0, 0x0, 0x0, 0x0⟩
def SEC_CMD : Reg := ⟨0x40020, 0, 1, 0, 1, 8, 0x0, 0x0, 0x0, 0xffffffff0000fff0⟩
def PCI_IDENT : Reg := ⟨0x3000000, 0, 1, 0, 1, 8, 0x30160000, 0x0, 0x0, 0xffffffc000000000⟩
def PCI_LINK : Reg := ⟨0x3000008, 0, 1, 0, 1, 4, 0x0, 0x0, 0x0, 0xfffffe00⟩
def PCI_QHALT : Reg := ⟨0x3000100, 8, 16, 0, 1, 8, 0x0, 0x0, 0xffffffffffffffff, 0x0⟩
def PWR_LIMIT : Reg := ⟨0x10000, 0, 1, 0, 1, 4, 0xbb8, 0xfff, 0x0, 0xfffff000⟩
def PWR_MS_CTL : Reg := ⟨0x10008, 0, 1, 0, 1, 8, 0x0, 0x3, 0x0, 0xffffffff0000ffc0⟩
def PWR_IDLE_CFG : Reg := ⟨0x10010, 0, 1, 0, 1, 8, 0x1000a000a, 0x1ffffffff, 0x0, 0xfffffffe00000000⟩
def PWR_IN : Reg := ⟨0x10018, 0, 1, 0, 1, 8, 0x0, 0x0, 0x0, 0x0⟩
def PWR_COOL : Reg := ⟨0x10020, 0, 1, 0, 1, 8, 0x0, 0x0, 0x0, 0xffffffff00000000⟩
def PWR_TEMP : Reg := ⟨0x10028, 0, 1, 0, 1, 8, 0x0, 0x0, 0x0, 0xf000000000000000⟩
def PWR_PART_STAT : Reg := ⟨0x10100, 8, 16, 0, 1, 4, 0x0, 0x0, 0x0, 0xfffffffc⟩
def CLK_PCLK : Reg := ⟨0x20000, 8, 16, 0, 1, 4, 0x352d4800, 0x0, 0x0, 0xc0000000⟩
def CLK_STAT : Reg := ⟨0x20100, 0, 1, 0, 1, 8, 0x0, 0x0, 0x0, 0xffffffffff000000⟩

end R

def regMap0 : List Reg :=
  [R.GEO_IDENT, R.GEO_COUNT, R.GEO_MEM, R.GEO_TAB0, R.GEO_TAB1, R.GEO_TAB2, R.GEO_CLOCK, R.GEO_AVAIL, R.GEO_FEAT, R.CAL_STAT_CFG, R.MQ_CTL, R.MQ_FLAGS, R.MQ_LOG_CFG, R.MQ_LOG_PTR, R.MQ_STEP_STAT, R.MQ_NF_TOTAL, R.MQ_POLICY, R.CTX_CFG, R.CTX_QUOTA, R.CTX_FLG_RANGE, R.CTX_PF_CFG, R.CTX_PF_BASE, R.CTX_CTL, R.CTX_STAT, R.CTX_RGN_STAGE]
def regMap1 : List Reg :=
  [R.CTX_RGN_CMD, R.CTX_RGN_STAT, R.Q_CFG, R.Q_BASE, R.Q_STAT, R.FLG_VAL, R.FLG_ADD, R.TDT_WIN_SEL, R.TDT_STAGE, R.TDT_CMD, R.TDT_CMD_STAT, R.MEM_ZONE, R.MEM_ZONE_CTL, R.MEM_SCRUB_CFG, R.MEM_ECC_CFG, R.MEM_BAR4_WIN, R.MEM_STACK_STAT, R.MEM_ECC_CNT, R.MEM_ERR_ADDR, R.MEM_SCRUB_STAT, R.MEM_WASTE, R.SC_CFG, R.SC_ECC_CNT, R.SC_ATOM_CNT, R.LNK_CFG]
def regMap2 : List Reg :=
  [R.LNK_CTL, R.LNK_STAT, R.LNK_ERR, R.LNK_DROP, R.LNK_LAT, R.LNK_VC_WEIGHT, R.LNK_AXIS_VC, R.LNK_PROBE_CFG, R.LNK_PROBE_PTR, R.LNK_CTX_GEN, R.RTE_SHAPE, R.RTE_SELF, R.RTE_EPOCH, R.RTE_CMD, R.RTE_PIN, R.RTE_REMAP, R.RTE_DETOUR, R.COL_STAT, R.COL_QUEUE, R.UPD_CTL, R.UPD_SPAN, R.UPD_NORM, R.UPD_ENG_STAT, R.UPD_GROUP, R.UPD_STREAM]
def regMap3 : List Reg :=
  [R.STEP_CFG, R.STEP_NF_LIMIT, R.STEP_CTL, R.STEP_STAT, R.STEP_COMMITTED, R.STEP_CUR, R.STEP_SET, R.STEP_LOSS, R.STEP_LOSS_CNT, R.STEP_LAST, R.STEP_WAIT, R.STEP_WAIT_NS, R.STEP_COUNTS, R.STEP_FLAGS, R.CAST_CFG, R.CAST_LIST, R.CAST_STORE, R.CAST_SIZE, R.CAST_SPAN, R.CAST_CMD, R.CAST_RESTORE_GEN, R.CAST_GEN, R.CAST_GEN_STEP, R.CAST_STAT, R.CAST_COST]
def regMap4 : List Reg :=
  [R.CAST_GENS, R.CAST_TOKEN, R.CAST_RATE, R.CAST_POLICY, R.FLT_SUMMARY, R.FLT_IRQ_EN, R.FLT_LOG_PTR, R.FLT_RESET, R.FLT_RESET_CAUSE, R.FLT_PART_RESETS, R.FLT_PEND_CTX, R.FLT_PEND_BLK, R.FLT_PEND_Q, R.HANG_CTX_CFG, R.HANG_CFG, R.HANG_STAT, R.HANG_RING_CFG, R.HANG_RING_PTR, R.DUMP_CTL, R.DUMP_STAT, R.DUMP_WIN_SEL, R.PART_CTL, R.PART_STAT, R.PART_UCODE_ADDR, R.PART_UCODE_CMD]
def regMap5 : List Reg :=
  [R.TIME_NOW, R.CNT_CORE, R.CNT_MOD, R.CNT_WIN_CFG, R.CNT_WIN_PTR, R.TRC_CFG, R.TRC_CTX_MASK, R.TRC_MARK, R.TRC_FLUSH, R.TRC_BUF, R.TRC_PTR, R.TRC_HOST_ADDR, R.TRC_HOST_PTR, R.WATCH_ENTRY, R.WATCH_STAT, R.TIME_STOP_AT, R.TIME_STOP_CTL, R.TIME_STOP_STAT, R.TIME_STOP_TAKEN, R.TIME_STOP_RESUMED, R.BOOT_STAT, R.BOOT_IMG_ADDR, R.BOOT_CMD, R.BOOT_LEN, R.SEC_STAT]
def regMap6 : List Reg :=
  [R.SEC_ID, R.SEC_NONCE, R.SEC_CMD, R.PCI_IDENT, R.PCI_LINK, R.PCI_QHALT, R.PWR_LIMIT, R.PWR_MS_CTL, R.PWR_IDLE_CFG, R.PWR_IN, R.PWR_COOL, R.PWR_TEMP, R.PWR_PART_STAT, R.CLK_PCLK, R.CLK_STAT]

/-- The register map of BAR0 (14 Table 14.7), in the order of the chapters. -/
def regMap : List Reg :=
  regMap0 ++ regMap1 ++ regMap2 ++ regMap3 ++ regMap4 ++ regMap5 ++ regMap6

end Sys2Proof.Machine
end

