-- ==== Sys2Proof/Machine/Status.lean ====
section
/-! DEFINITION. The status codes of Table 12.3 (R13, R361) and the classes of Table 12.1. -/

namespace Sys2Proof.Machine

/-- A status: its 16-bit code (R13). -/
abbrev Status := Nat

/-- Success -/
def ST_OK : Status := 0x0000
/-- Record version differs from its queue's stream_ver, or the opcode has no encoding in that version -/
def ST_BAD_VERSION : Status := 0x0101
/-- Reserved opcode -/
def ST_BAD_OPCODE : Status := 0x0102
/-- Reserved bit or unused slot not zero (R168) -/
def ST_BAD_RECORD : Status := 0x0103
/-- Flag index at or above flag_count -/
def ST_BAD_FLAG : Status := 0x0104
/-- Descriptor index, kind, layout or alignment invalid -/
def ST_BAD_DESC : Status := 0x0105
/-- Region invalid, range outside the region, zone mismatch, or invalid zone map -/
def ST_BAD_REGION : Status := 0x0106
/-- Missing right, read-only descriptor, or entry owned by another context -/
def ST_ACCESS_DENIED : Status := 0x0107
/-- Feature bit 0 (R25) -/
def ST_UNSUPPORTED : Status := 0x0108
/-- Format code or format combination not accepted -/
def ST_BAD_FORMAT : Status := 0x0109
/-- Extent, shape, count or convolution parameter invalid -/
def ST_BAD_SHAPE : Status := 0x010a
/-- Attribute, parameter or group value out of range -/
def ST_BAD_ATTR : Status := 0x010b
/-- Scale not a positive normal FP32 value, or required scales unequal -/
def ST_BAD_SCALE : Status := 0x010c
/-- Plan word or statistics configuration invalid -/
def ST_BAD_PLAN : Status := 0x010d
/-- Alias used outside its interlude -/
def ST_ALIAS_CLOSED : Status := 0x010e
/-- Stream pair already bound in the context -/
def ST_STREAM_DUP : Status := 0x010f
/-- Context or queue in the wrong state for the request -/
def ST_CTX_STATE : Status := 0x0201
/-- Quota, flag range or VF binding exceeds the table or overlaps another context -/
def ST_QUOTA : Status := 0x0202
/-- Command while the previous is busy, restore with operations running, or park timeout -/
def ST_BUSY : Status := 0x0203
/-- Queue configuration invalid -/
def ST_BAD_QUEUE : Status := 0x0204
/-- Doorbell value refused (R140) -/
def ST_BAD_DOORBELL : Status := 0x0205
/-- Not permitted while a step is open -/
def ST_STEP_OPEN : Status := 0x0206
/-- Requires an open step, or the step named has closed -/
def ST_NO_STEP : Status := 0x0207
/-- Step operation out of order -/
def ST_STEP_ORDER : Status := 0x0208
/-- Steps of the context are halted -/
def ST_STEP_HALTED : Status := 0x0209
/-- Bad access size or alignment, reserved field value, or wrong key -/
def ST_BAD_ACCESS : Status := 0x0301
/-- RWL field written while locked -/
def ST_LOCKED : Status := 0x0302
/-- Access to a block not answered within 10 µs -/
def ST_NO_RESPONSE : Status := 0x0303
/-- Poisoned word read (R220) -/
def ST_MEM_UNCORR : Status := 0x0401
/-- Uncorrectable error in on-die static RAM ("On-die memories") -/
def ST_SRAM_UNCORR : Status := 0x0402
/-- Partition or stack out of service; as class 4, a part_avail bit cleared (R27) -/
def ST_PART_DOWN : Status := 0x0403
/-- Index out of range: class 0 without strict, class 3 under strict (R185) -/
def ST_INDEX_RANGE : Status := 0x0404
/-- Host-window request failed (R229) -/
def ST_HOST_ABORT : Status := 0x0405
/-- Flag add wrapped -/
def ST_FLAG_WRAP : Status := 0x0406
/-- Stack at thermal level 3 -/
def ST_STACK_HOT : Status := 0x0407
/-- Stack fault declared (R222) -/
def ST_STACK_FAULT : Status := 0x0408
/-- Correctable errors above ce_limit (R219) -/
def ST_MEM_CE_LIMIT : Status := 0x0409
/-- Scrub pass late (R223) -/
def ST_SCRUB_LATE : Status := 0x040a
/-- Partition returned to service; part_avail bit set (R27) -/
def ST_PART_UP : Status := 0x040b
/-- No usable route, or a route lost to a link notice -/
def ST_NO_ROUTE : Status := 0x0501
/-- Routing commit invalid -/
def ST_BAD_ROUTE : Status := 0x0502
/-- Route broadcast of equal epoch and different contents -/
def ST_EPOCH_CONFLICT : Status := 0x0503
/-- Conflicting address assignment; port fenced -/
def ST_FABRIC_INCONSISTENT : Status := 0x0504
/-- No free automatic detour entry -/
def ST_DETOUR_FULL : Status := 0x0505
/-- Port pairing wrong (R242) -/
def ST_LINK_MISWIRED : Status := 0x0506
/-- Peer is not a KQ-3016-LX -/
def ST_PEER_UNSUPPORTED : Status := 0x0507
/-- Participants disagree on a collective or vote -/
def ST_COLL_MISMATCH : Status := 0x0508
/-- Collective or span reduction exceeded 5 s -/
def ST_COLL_TIMEOUT : Status := 0x0509
/-- Port left ACTIVE or DEGRADED: entered DOWN, was fenced or was disabled; port_avail bit cleared (R27) -/
def ST_LINK_DOWN : Status := 0x050a
/-- Port returned to ACTIVE or DEGRADED; port_avail bit set (R27) -/
def ST_LINK_UP : Status := 0x050b
/-- Stream pair bound in two contexts -/
def ST_STREAM_SHARED : Status := 0x0601
/-- Cast configuration or list invalid -/
def ST_CAST_CONFIG : Status := 0x0602
/-- Cast generation abandoned -/
def ST_CAST_ABANDONED : Status := 0x0603
/-- No source holds restore data -/
def ST_CAST_LOST : Status := 0x0604
/-- Token and counter tags disagree (R352) -/
def ST_RESTORE_TAG : Status := 0x0605
/-- Token differs from the expected token -/
def ST_RESTORE_TOKEN : Status := 0x0606
/-- Operation timeout -/
def ST_OP_TIMEOUT : Status := 0x0701
/-- Queue progress timeout -/
def ST_QUEUE_STALL : Status := 0x0702
/-- Wait-for knot reported -/
def ST_DEADLOCK : Status := 0x0703
/-- Teardown quiescence not reached in 5 ms -/
def ST_TEARDOWN_TIMEOUT : Status := 0x0704
/-- Partition reset begun -/
def ST_PART_RESET : Status := 0x0705
/-- Module entered the failed state -/
def ST_MODULE_FAILED : Status := 0x0706
/-- Microcode store write while not parked -/
def ST_UCODE_UNPARKED : Status := 0x0707
/-- Microcode image malformed -/
def ST_UCODE_INVALID : Status := 0x0708
/-- Pending enable cancelled by a later disable -/
def ST_ENABLE_CANCELLED : Status := 0x0709
/-- Armature processor or link-die protocol watchdog expired -/
def ST_WATCHDOG : Status := 0x070a
/-- Signature verification failed -/
def ST_SIG_INVALID : Status := 0x0801
/-- Hash verification failed -/
def ST_HASH_MISMATCH : Status := 0x0802
/-- Persistent change without physical presence -/
def ST_NO_PRESENCE : Status := 0x0803
/-- Seal loop open -/
def ST_SEAL_OPEN : Status := 0x0804
/-- Unlock token invalid -/
def ST_UNLOCK_INVALID : Status := 0x0805
/-- Boot entered recovery mode -/
def ST_RECOVERY_MODE : Status := 0x0806
/-- Thermal trip -/
def ST_THERMTRIP : Status := 0x0901
/-- Die temperature at a throttle threshold -/
def ST_DIE_HOT : Status := 0x0902
/-- Power-up refused or power removed for lack of coolant flow -/
def ST_NO_FLOW : Status := 0x0903
/-- Input voltage above its limit -/
def ST_INPUT_RANGE : Status := 0x0904
/-- Input below 52 V for more than 1 ms -/
def ST_BROWNOUT : Status := 0x0905
/-- Arithmetic clocks stretched to hold the power limit -/
def ST_POWER_LIMIT : Status := 0x0906
/-- Tensor-watch copy skipped -/
def ST_WATCH_SKIPPED : Status := 0x0a01
/-- Trace records lost -/
def ST_TRACE_OVERRUN : Status := 0x0a02

/-- Every code of Table 12.3 but `ST_OK`. -/
def statusCodes : List Status :=
  [ST_BAD_VERSION, ST_BAD_OPCODE, ST_BAD_RECORD, ST_BAD_FLAG, ST_BAD_DESC, ST_BAD_REGION,
   ST_ACCESS_DENIED, ST_UNSUPPORTED, ST_BAD_FORMAT, ST_BAD_SHAPE, ST_BAD_ATTR, ST_BAD_SCALE,
   ST_BAD_PLAN, ST_ALIAS_CLOSED, ST_STREAM_DUP, ST_CTX_STATE, ST_QUOTA, ST_BUSY,
   ST_BAD_QUEUE, ST_BAD_DOORBELL, ST_STEP_OPEN, ST_NO_STEP, ST_STEP_ORDER, ST_STEP_HALTED,
   ST_BAD_ACCESS, ST_LOCKED, ST_NO_RESPONSE, ST_MEM_UNCORR, ST_SRAM_UNCORR, ST_PART_DOWN,
   ST_INDEX_RANGE, ST_HOST_ABORT, ST_FLAG_WRAP, ST_STACK_HOT, ST_STACK_FAULT, ST_MEM_CE_LIMIT,
   ST_SCRUB_LATE, ST_PART_UP, ST_NO_ROUTE, ST_BAD_ROUTE, ST_EPOCH_CONFLICT, ST_FABRIC_INCONSISTENT] ++
  [ST_DETOUR_FULL, ST_LINK_MISWIRED, ST_PEER_UNSUPPORTED, ST_COLL_MISMATCH, ST_COLL_TIMEOUT, ST_LINK_DOWN,
   ST_LINK_UP, ST_STREAM_SHARED, ST_CAST_CONFIG, ST_CAST_ABANDONED, ST_CAST_LOST, ST_RESTORE_TAG,
   ST_RESTORE_TOKEN, ST_OP_TIMEOUT, ST_QUEUE_STALL, ST_DEADLOCK, ST_TEARDOWN_TIMEOUT, ST_PART_RESET,
   ST_MODULE_FAILED, ST_UCODE_UNPARKED, ST_UCODE_INVALID, ST_ENABLE_CANCELLED, ST_WATCHDOG, ST_SIG_INVALID,
   ST_HASH_MISMATCH, ST_NO_PRESENCE, ST_SEAL_OPEN, ST_UNLOCK_INVALID, ST_RECOVERY_MODE, ST_THERMTRIP,
   ST_DIE_HOT, ST_NO_FLOW, ST_INPUT_RANGE, ST_BROWNOUT, ST_POWER_LIMIT, ST_WATCH_SKIPPED,
   ST_TRACE_OVERRUN]

/-- The classes of Table 12.1. -/
inductive Cls where
  | event
  | refused
  | reject
  | error
  | contained
  | fatal
deriving DecidableEq, Repr

/-- The class's number. -/
def Cls.code : Cls → Nat
  | .event => 0
  | .refused => 1
  | .reject => 2
  | .error => 3
  | .contained => 4
  | .fatal => 5

end Sys2Proof.Machine
end

