-- ==== Sys2Proof/Machine/State.lean ====
section
/-! DEFINITION. The state of the block: every register, table, queue, counter, mode and pin the spec gives the module, as
plain data, and the queue of waiting commands. Each structure's default values are its values after a whole-module reset. -/

namespace Sys2Proof.Machine

/-- A record fetched ahead of the head (R141): its native form (a version 1 record is translated, R196) and the status
that its fetch already found (`ST_OK`, `ST_BAD_VERSION` under R139, `ST_MEM_UNCORR` for a poisoned slot). -/
structure Fetched where
  rcd : W1024
  early : Status
deriving DecidableEq, Repr

/-- A tensor an operation captured at issue (R102, R136): its slot, global TDT entry, the context whose region table
placed it, whether it was reached through an alias (R163), its descriptor and region entry. -/
structure Cap where
  slot : Nat
  entry : Nat
  owner : Nat
  viaAlias : Bool
  desc : W512
  rgn : W256
deriving DecidableEq, Repr

/-- A publication that completion makes (R101): entry, format and scale written. -/
structure Pub where
  entry : Nat
  fmt : Nat
  scale : Nat
deriving DecidableEq, Repr

/-- What a Caliper gathers for one tensor in one operation (Table 4.3); `amax` is an FP32 pattern. -/
structure Stat where
  amax : Nat := 0
  nVal : Nat := 0
  nNz : Nat := 0
  nSat : Nat := 0
  nUf : Nat := 0
  nOutl : Nat := 0
  nExc : Nat := 0
  nNf : Nat := 0
  nOv : Nat := 0
  hist : List Nat := List.replicate 32 0
deriving DecidableEq, Repr

/-- The statistics that a run leaves for one tensor, with the format that its values were converted into. -/
structure TenStat where
  cap : Cap
  fmt : Nat
  stat : Stat
deriving DecidableEq, Repr

/-- What a stationary cell holds (Table 3.1): its 14-bit register, and the companion digit register of temporal fusion. -/
structure Cell where
  reg : BitVec 14
  low : BitVec 4 := 0
deriving DecidableEq, Repr

/-- What the arrays hold of a matrix operation: the dataflow that `AUTO` resolved to (R85: 0 `WS`, 1 `IS`), the stationary
entries that its passes load, in the storage order of the stationary operand (R66), and the side list that its loads made, in
the order of its load tiles (R93). -/
structure ArrayLoad where
  flow : Nat
  cells : List Cell := []
  side : List W64 := []
deriving DecidableEq, Repr

/-- An exchange on a ring (R274-R283): what it does (0 reduce-scatter, 1 all-reduce, 2 all-gather, 3 all-to-all,
4 broadcast), its packets, and the values it holds, by element number of the whole tensor. Values are FP32 patterns in a
reduction and element codes otherwise. -/
structure Ring where
  kind : Nat
  ptype : Nat := 0x11
  /-- stage number of its first hop (R274) -/
  base : Nat := 0
  /-- elements of the whole tensor, or of one source of an all-to-all -/
  n : Nat
  /-- wire format -/
  fmt : Nat
  /-- indices of this participant and of a broadcast's root -/
  k : Nat
  root : Nat := 0
  /-- own contribution; chunk scales of a G16 tensor that moves unchanged -/
  x : List Nat := []
  xs : List Nat := []
  res : Tab Nat := []
  resScale : Tab Nat := []
  /-- upper nibble after a last odd 4-bit element: the source's, and the one received (R32) -/
  tail : Nat := 0
  resTail : Nat := 0
  /-- first packet of a chunk that comes in two: direction, stage, offset, values -/
  part : List (Nat × Nat × Nat × List Nat) := []
  /-- packets received: direction, stage, offset -/
  got : List (Nat × Nat × Nat) := []
  /-- packets that wait for the neighbour's `COLL_READY`: direction, stage, offset, payload -/
  outq : List (Nat × Nat × Nat × List Byte) := []
  /-- events counted against the non-finite total (R282) -/
  events : Nat := 0
deriving DecidableEq, Repr

/-- The part of a collective that its engine holds (R273-R293). -/
structure Coll where
  /-- the engine it runs on, none while it waits for one -/
  engine : Option Nat := none
  /-- `COLL_READY` received from the plus and the minus neighbour -/
  readyPlus : Bool := false
  readyMinus : Bool := false
  ring : Option Ring := none
  /-- a `REDUCE_UPDATE` is at: 0 its gradient, 1 the wait of R330, 2 its column statistics, 3 its rows, 4 done -/
  phase : Nat := 0
  /-- 0 first pass, 1 update pass or redo, 2 statistics writes only (R483) -/
  pass : Nat := 0
  /-- clip factor, an FP32 pattern -/
  clip : Nat := 0x3F800000
  /-- the reduced shard, as FP32 patterns -/
  g : List Nat := []
  /-- when the wait of R330 began -/
  since : Nat := 0
deriving DecidableEq, Repr

/-- Which run of an operation has left statistics that are not yet merged (R107, R116). -/
inductive RunKind where
  | none
  | first
  | again
deriving DecidableEq, Repr

/-- An operation that has issued and not completed (R142). -/
structure Op where
  /-- the record, native form -/
  rcd : W1024
  caps : List Cap := []
  /-- partitions holding an unfinished share; a share that does not stop is found by SHARE_STOP_TIMEOUT -/
  parts : Nat := 0
  /-- bytes written, by memory key, visible at completion (R150) -/
  writes : List (Nat × Byte) := []
  pubs : List Pub := []
  /-- status it completes with -/
  status : Status := ST_OK
  /-- every share has finished and the operation may complete -/
  ready : Bool := true
  /-- a fallback re-run is due: slots with the format and scale that it uses for them (R115) -/
  fallback : List (Nat × Nat × Nat) := []
  /-- single nibbles written, visible at completion: address, upper half, value (R31, R173) -/
  nibbles : List (Nat × Bool × Nat) := []
  /-- statistics gathered and not yet merged (R107): of no run, of the first run, of the re-run -/
  run : RunKind := .none
  stats : List TenStat := []
  /-- a load met outlier excess (R92) -/
  excess : Bool := false
  /-- what the arrays hold of it -/
  arr : Option ArrayLoad := none
  /-- signal slots performed at completion -/
  sigMask : Nat := 15
  coll : Option Coll := none
  /-- host traffic: 0 none, 1 reads of its data outstanding, 2 final zero-length read outstanding (R228) -/
  hostPhase : Nat := 0
  /-- a host request of it failed (R229) -/
  hostFail : Bool := false
  /-- bytes read through a host window so far, by host address -/
  hostData : List (Nat × Byte) := []
deriving DecidableEq, Repr

/-- A queue (R139-R146). Configuration is in `Q_CFG` and `Q_BASE`. -/
structure Queue where
  tail : W32 := 0
  head : W32 := 0
  fetched : List Fetched := []
  checked : Bool := false
  op : Option Op := none
  halted : Option Status := none
  /-- the status that last halted it, as `Q_STAT.status` keeps it -/
  status : Status := ST_OK
  flagSel : BitVec 16 := 0
  stalled : Bool := false
  /-- flag of the wait that the head was found blocked on (R403) -/
  blocked : Option Nat := none
deriving DecidableEq, Repr

/-- A prefetch list running (R166): layer, the queue that started it, the next item, what that item captured when it started, the
bytes that have arrived from the host for it, and the last host address that the list's items wrote, until a zero-length read of
it has come back (R228). -/
structure PfRun where
  layer : Nat
  queue : Nat
  item : Nat := 0
  cap : Option (W1024 × List Cap) := none
  data : List (Nat × Byte) := []
  wrote : Option Nat := none
deriving DecidableEq, Repr

/-- An interlude in progress, kept with its evaluation context (R161, R162). -/
structure Interlude where
  train : Nat
  queue : Nat
  parts : Nat
  flag : Nat
  target : W64
  budget : Nat
  /-- operations of the training context that ran when it issued and still run: queue and record number (R162 step 1) -/
  before : List (Nat × W32) := []
  /-- step 2 has been reached: the evaluation context runs -/
  started : Bool := false
  /-- when step 2 was reached -/
  since : Nat := 0
  /-- ended by flag, budget, or teardown (R162, R383) -/
  ended : Bool := false
  /-- when its budget ran out -/
  expired : Option Nat := none
  /-- step 5 has been reached: `in_interlude` is cleared and the `INTERLUDE` operation may complete -/
  closed : Bool := false
deriving DecidableEq, Repr

/-- Whether the interlude is in progress: from step 2 to its end. -/
def Interlude.live (il : Interlude) : Bool := il.started && !il.ended

/-- A span reduction in progress (R297): its span, tag, the axis it has reached (4: finished), this module's combined value,
and the values received on the axis with their senders' index. -/
structure SpanRed where
  span : W64
  tag : Nat
  axis : Nat
  value : SpanVal
  got : List (Nat × SpanVal) := []
deriving DecidableEq, Repr

/-- A cast-list entry as loaded (Table 11.1) and, for its dirty fraction, the extents found dirty at each of the last 16
generations (R342). -/
structure CastEntry where
  raw : W256
  hist : List Nat := []
deriving DecidableEq, Repr

/-- A cast stream of one sender and generation that this module stores (R329): kind (0 mirror, 1 parity, 2 record), sender,
slot (a parity stream goes row by row, R341), state (0 filling, 1 landed, 2 sealed), bytes stored, bytes announced. -/
structure CastSlot where
  kind : Nat
  sender : Nat
  slot : Nat
  gen : W32
  state : Nat := 0
  stored : Nat := 0
  said : Option Nat := none
deriving DecidableEq, Repr

/-- A generation in drain (R327, R328): number, step, whether it is sent whole, bytes sent and acknowledged per receiver and
kind, whether this module's part is complete, when it began. -/
structure Drain where
  gen : W32
  step : W64
  full : Bool
  sent : List (Nat × Nat × Nat) := []
  acked : List (Nat × Nat × Nat) := []
  localDone : Bool := false
  began : Nat := 0
deriving DecidableEq, Repr

/-- Where a restore takes an entry from (R351). -/
inductive Source where
  | current
  | alternate
  | mirror
  | parity
deriving DecidableEq, Repr

/-- A restore in progress (R350-R353): generation, whether the token is checked, the sources of the record still to be
tried, the record, the source of each list entry, blocks asked for (answerer, kind, offset) and, for a rebuild from parity,
the blocks gathered so far by offset. -/
structure Restore where
  gen : W32
  check : Bool
  tries : List Nat := []
  record : Option (List Byte) := none
  part : List (Nat × List Byte) := []
  sources : List Source := []
  want : List (Nat × Nat × Nat) := []
  acc : List (Nat × Nat × List Byte) := []
deriving DecidableEq, Repr

/-- What the boundary leaves pending for a touched tensor beside its running state (R117). -/
structure SteerPend where
  /-- quota index of the tensor -/
  tensor : Nat
  /-- the pending `req_fmt` and `plan_scale` of a steered tensor -/
  plan : Option (Nat × Nat)
  /-- `plan_scale` as the boundary found it -/
  base : Nat
  /-- 0 no change of format, 1 promotion, 2 demotion -/
  event : Nat
  /-- the scale was clamped -/
  clamped : Bool
  /-- a recipe flag is to be raised -/
  recipe : Bool
deriving DecidableEq, Repr

/-- What a context holds beside its registers (R130, R165, R161, R117, R296, R313, R327). -/
structure Ctx where
  /-- group and stream entries that its writes have changed since its last `STEP_BEGIN` (R190, R303) -/
  wroteGroups : List Nat := []
  wroteStreams : List Nat := []
  pfMarks : List Nat := []
  pfRun : List PfRun := []
  /-- lists that ended on a failed item, with its status -/
  pfBad : List (Nat × Status) := []
  /-- interludes granted to the context, in the order of their issue (R161) -/
  iludes : List Interlude := []
  /-- entries whose statistics the step touched (R117), and layers seen and overflowed (R125) -/
  touched : List Nat := []
  layersSeen : List Nat := []
  layersOver : List Nat := []
  /-- pending steering results (R117, R121) -/
  pending : List SteerPend := []
  /-- quota indices whose pending plan a maintenance write has voided (R122) -/
  voided : List Nat := []
  /-- non-finite events the link-die engines reported in the step (R124) -/
  nfEngines : Nat := 0
  /-- the norm accumulator (R296): an exact sum, in units of 2^-149, and its non-finite mark -/
  normAcc : Nat := 0
  normNf : Bool := false
  /-- the `REDUCE_UPDATE` operations that the step has completed, in order (R296) -/
  layers : List Op := []
  /-- tensors that a `REDUCE_UPDATE` of the step named in d1-d4 (R287); protected tensors it touched (R309) -/
  named : List Nat := []
  prot : List Nat := []
  /-- protected tensors whose buffers the last passing flip released (R330) -/
  released : List Nat := []
  /-- the update phase knows its norm, an FP32 pattern, and whether it came from a span reduction (R296) -/
  norm : Option (Nat × Bool) := none
  /-- the update phase met an error (R315, `CLIP`) -/
  updErr : Bool := false
  /-- layers redone in the update phase -/
  redone : Nat := 0
  /-- data-position token latched by STEP_BEGIN (R313) -/
  token : W256 := 0
  objective : Option Nat := none
  spike : Bool := false
  lossDone : Bool := false
  aggDone : Bool := false
  updDone : Bool := false
  pendLoss : Option (Nat × Nat × Nat) := none
  verdict : Option (Bool × Bool) := none
  hostVeto : Bool := false
  /-- the open step was abandoned for a cause other than a storm (R315) -/
  abandonOther : Bool := false
  vote : Option SpanRed := none
  voteQ : Option Nat := none
  normRed : Option SpanRed := none
  castRed : Option SpanRed := none
  /-- writes per descriptor in the step, for watch entries (R408) -/
  writeCount : List (Nat × Nat) := []
  castList : List CastEntry := []
  /-- `k_int` as the last passing flip took it (R349) -/
  kNow : Nat := 1
  castLoaded : Bool := false
  slots : List CastSlot := []
  drain : Option Drain := none
  restore : Option Restore := none
  /-- generation to which the last restore went, until the next step begins (R351) -/
  restored : Option W32 := none
  /-- exposed cost of recent generations and times of recent passing flips, newest first (R348) -/
  costs : List Nat := []
  flips : List Nat := []
  /-- exposed cost since the last generation was complete -/
  cost : Nat := 0
  /-- tags of collectives that timed out: packets of them that still arrive are dropped (R375) -/
  deadTags : List Nat := []
  /-- queue of the `FLIP` that has issued, and since when it waits (R311) -/
  flipQ : Option Nat := none
  flipSince : Option Nat := none
deriving DecidableEq, Repr

/-- A loaded image (R443, R444): version, SVN, SHA-256 digest. -/
structure Image where
  ver : Nat := 0
  svn : Nat := 0
  digest : W256 := 0
deriving DecidableEq, Repr

/-- A partition (R17, R159, R364, R385): what it holds beside its registers. -/
structure Part where
  active : Option Nat := none
  since : Nat := 0
  /-- times of its fault resets (R364) -/
  faults : List Nat := []
  /-- a microcode load has requested a park (R385) -/
  park : Option Image := none
  ucode : Image := {}
  selfTestFailed : Bool := false
  /-- cause of the reset in progress: 0 none, 1 fault, 2 host, 3 thermal -/
  resetCause : Nat := 0
  stopTime : Nat := 0
  scrubPos : Nat := 0
  ceRecent : List Nat := []
  ueRecent : List Nat := []
  selfRefresh : Bool := false
  /-- every word of the stack not listed in `poison` is poisoned (R366) -/
  fill : Bool := false
  /-- the record a gated partition woke for waits until it runs (R462) -/
  waking : Bool := false
deriving DecidableEq, Repr

/-- A line of a shared-cache slice (R207): its number (the stack-local address divided by 128), whether the access that allocated it
was `FINE` (R204), and the valid and dirty bits of its four sectors. -/
structure Line where
  tag : Nat := 0
  fine : Bool := false
  valid : Nat := 0
  dirty : Nat := 0
deriving DecidableEq, Repr

/-- A set of a slice: the lines in its ways, 0 to 11, and the bits of its pseudo-LRU tree. -/
structure WaySet where
  ways : Tab Line := []
  plru : Nat := 0
deriving DecidableEq, Repr

/-- A DATA flit held for transmission or replay: its VC, class, packet and place in the packet (R244, R250). -/
structure TxFlit where
  vc : Nat
  cls : Bool
  pkt : Packet
  idx : Nat
  seq : Nat := 0
deriving DecidableEq, Repr

/-- A port (R237-R248): what it holds beside its registers. -/
structure Port where
  txSeq : Nat := 0
  replay : List TxFlit := []
  waiting : List TxFlit := []
  credits : Tab Nat := []
  /-- weighted round robin: VC being served and flits left of its weight (R248) -/
  wrrVc : Nat := 1
  wrrLeft : Nat := 0
  rxNext : Nat := 0
  nakWait : Bool := false
  rxHeld : Tab Nat := []
  rxReturn : Tab Nat := []
  nakSeq : Nat := 0
  nakCount : Nat := 0
  keepalives : Nat := 0
  probesRx : Nat := 0
  peerMode : Option Nat := none
  ident : Option Identity := none
  /-- `fence` was written while packets on VCs 1-7 were under way (R265) -/
  fencing : Bool := false
deriving DecidableEq, Repr

/-- Discovery and routing state beside the `RTE_` registers (R254, R257, R258, R265). -/
structure Fabric where
  bestKey : Option (Nat × Nat) := none
  started : Bool := false
  haveAddr : Bool := false
  peers : List (Nat × Nat) := []
  remap : Tab W64 := []
  detour : Tab W64 := []
  bseq : Nat := 0
  seen : List (Nat × Nat) := []
  deferred : List Packet := []
  /-- link dies whose keepalives the watchdog stopped (R372) -/
  silent : Nat := 0
  /-- packets to this module itself, oldest first, delivered before the next command (R255) -/
  loop : List Packet := []
  /-- routes that failed (R255 has them counted; no register shows the number) -/
  noRoute : Nat := 0
deriving DecidableEq, Repr

/-- An outstanding host read (R227, R228): tag, the queue of its operation or the context and layer of its prefetch list,
address and bytes; 0 bytes is the final zero-length read. -/
structure HostReq where
  tag : Nat
  queue : Nat
  list : Option (Nat × Nat)
  addr : Nat
  len : Nat
  fn : Nat
  sent : Bool := false
deriving DecidableEq, Repr

/-- A pending signaller (R376): module flag, queue, sets rather than adds, value. -/
structure Sig where
  flag : Nat
  queue : Nat
  num : W32
  isSet : Bool
  value : Nat
deriving DecidableEq, Repr

/-- A knot or unreachable target being watched for 2 ms (R377, R378): kind, members with flag and value, since when,
reported. -/
structure Knot where
  kind : Nat
  members : List (Nat × Nat × W64)
  since : Nat
  reported : Bool
deriving DecidableEq, Repr

/-- The deadlock detector (R376-R378). -/
structure Hang where
  sigs : List Sig := []
  unknown : List Nat := []
  knots : List Knot := []
deriving DecidableEq, Repr

/-- A crash-dump capture in progress (R379, R380): cause, trigger, start stamp. -/
structure Capture where
  cause : Status
  trigger : Nat
  start : Nat
deriving DecidableEq, Repr

/-- A trace source (R403-R405): sequence number, losses not yet reported, stamp of its last record. -/
structure TraceSrc where
  seq : Nat := 0
  lost : Nat := 0
  stamp : Option Nat := none
deriving DecidableEq, Repr

/-- A remote watch copy awaiting its answer (R411): identifier, entry, context, layer of the firing operation. -/
structure WatchWait where
  id : Nat
  entry : Nat
  ctx : Nat
  layer : Nat
deriving DecidableEq, Repr

/-- An SPDM negotiation (R441): version and algorithms agreed on a transport. -/
structure Spdm where
  version : Bool := false
  caps : Bool := false
  algs : Bool := false
deriving DecidableEq, Repr

/-- The PCIe side (R429-R433, R227). -/
structure Pcie where
  perst : Bool := true
  link : Bool := false
  vfEnable : Bool := false
  numVfs : Nat := 0
  bar4Log2 : Nat := 34
  /-- (function, vector): function 0 is PF0, v + 1 is VF v; true where the vector is unmasked -/
  unmasked : Tab Bool := []
  msixPend : Tab Bool := []
  busMasterOff : Tab Bool := []
  maxPayload : Nat := 512
  maxRead : Nat := 512
  relaxed : Tab Bool := []
  reqs : List HostReq := []
  nextTag : Nat := 0
  /-- errors reported through Advanced Error Reporting: function, address of the request (R229) -/
  aer : List (Nat × Nat) := []
deriving DecidableEq, Repr

/-- Boot, images and security beside the `BOOT_` and `SEC_` registers (R417-R447). -/
structure Boot where
  firmware : Option Image := none
  config : Option Image := none
  /-- owner record of the boot header: the owner key hash, none while unowned (R422) -/
  owner : Option W256 := none
  armature : Image := {}
  link0 : Image := {}
  link1 : Image := {}
  /-- configuration image staged in recovery mode (R428) -/
  recoveryCfg : Option (List Byte) := none
  presenceOpen : Option Nat := none
  /-- SVC_PRESENT_N has gone high since the last window (R437) -/
  presenceArmed : Bool := true
  debug : Nat := 0
  sealWas : Bool := true
  spdmDoe : Spdm := {}
  spdmMctp : Spdm := {}
  eid : Byte := 0
  jtag : Bool := false
  /-- next free slots of the permanent and rolling event log areas, and the sector sequence number (R424) -/
  evPerm : Nat := 0
  evRoll : Nat := 0
  evSeq : Nat := 0
  calStamp : Option Nat := none
  calChanged : Bool := false
  calSeq : Nat := 0
deriving DecidableEq, Repr

/-- Why the rails are off (R452, R453, R466, R468, R470). -/
inductive Rails where
  /-- no input -/
  | off
  /-- the always-on domain runs and the rails wait for coolant flow (R470) -/
  | waitFlow
  | on
  /-- brown-out power-off; the record is retained (R453) -/
  | brownout
  /-- latched off until the always-on supply is lost -/
  | overvoltage
  | trip
  | refLoss
  | noFlow
deriving DecidableEq, Repr

/-- The power controller and sensors beside the `PWR_` and `CLK_` registers (R452-R471). -/
structure Power where
  rails : Rails := .waitFlow
  /-- records held in always-on retention (R453) -/
  retained : List W256 := []
  /-- the last 100 power samples, newest first, in units of 0.1 mW (R456) -/
  samples : List Nat := []
  /-- samples in a row with the mean above the limit, and below 98 percent of it, since the last change of the target -/
  above : Nat := 0
  below : Nat := 0
  /-- thermal level of each die (Table 15.8), and samples in a row at or above 95 °C and below 92 °C since its last change -/
  dieLevel : Tab Nat := []
  dieHot : Tab Nat := []
  dieCool : Tab Nat := []
  /-- flow and inlet temperature of the last 10 coolant samples, newest first (R470, R471) -/
  cool : List (Nat × Nat) := []
  /-- the last coolant sample stood below 1.0 L/min -/
  lowFlow : Bool := false
  /-- `ST_NO_FLOW` has been recorded while power-up waits -/
  noFlowSeen : Bool := false
  /-- the module power state that the running transition goes to (R460) -/
  msTo : Nat := 0
deriving DecidableEq, Repr

/-- The scheduled global stop (R412-R416) beside its registers: stacks whose loss was found during the stop and is acted
on at release (R414). -/
structure Stop where
  lost : List Nat := []
  /-- the stop time of the stop armed or in force -/
  at_ : Nat := 0
  /-- whether that lies after the `TIME_STOP_AT` of its arming -/
  late : Bool := false
deriving DecidableEq, Repr

/-- What the module sends to the outside (log entry 10). -/
inductive Out where
  /-- a DATA flit, byte for byte -/
  | dataFlit (port : Nat) (flit : List Byte)
  /-- a NAK, KEEPALIVE or IDLE flit, byte for byte -/
  | ctlFlit (port : Nat) (flit : List Byte)
  /-- what a training port tells its peer (Table 8.3): the highest mode it permits, and its identity frame -/
  | capabilities (port maxMode : Nat)
  | identity (port : Nat) (frame : Identity)
  | msix (fn : Nat) (vec : Nat)
  /-- a memory read request: requester (0 PF0, v + 1 VF v), tag, address, bytes, Relaxed Ordering -/
  | hostRead (rid tag addr len : Nat) (relaxed : Bool)
  | hostWrite (rid addr : Nat) (data : List Byte)
  /-- completion of a BAR4 read or AtomicOp: data and the poisoned (EP) bit -/
  | completion (data : List Byte) (poisoned : Bool)
  | unsupportedRequest
  | completerAbort
  /-- an SPDM or DOE response -/
  | spdm (ch : Chan) (data : List Byte)
  | doe (data : List Byte)
  | mctp (msgType : Nat) (data : List Byte)
deriving DecidableEq, Repr

/-- The module: everything but the queue of waiting commands. -/
structure Mod where
  /-- registers of BAR0, keyed by offset; an unlisted register holds its reset value -/
  regs : Tab W64 := []
  /-- the time base, ns (R389) -/
  time : Nat := 0
  /-- HBM contents, keyed by stack * 2^36 + stack-local address (R199); an unlisted byte is 0 -/
  mem : List Host.Cell := []
  /-- the shared cache, by 16,384 * slice + set (R207) -/
  slices : Tab WaySet := []
  /-- words whose poison mark differs from their stack's `fill`, keyed by stack * 2^33 + word (R220, R366) -/
  poison : Tab Bool := []
  /-- active zone map (R197): kind + 4 * place -/
  zones : Tab Nat := []
  flags : Tab W64 := []
  flagPois : Tab Bool := []
  tdt : Tab W512 := []
  /-- region entries, keyed by 1024 * context + region (R134) -/
  regions : Tab W256 := []
  groupsPend : Tab W256 := []
  groupsLatch : Tab W256 := []
  streams : Tab W256 := []
  streamsLatch : Tab W256 := []
  watch : Tab W256 := []
  watchWaits : List WatchWait := []
  watchSeen : List (Nat × W64) := []
  /-- head and tail of each watch ring are in memory; identifiers of remote copies -/
  watchId : Nat := 0
  /-- remote copies of which some packets have arrived (R411): sender, identifier, bytes -/
  watchIn : List (Nat × Nat × List Byte) := []
  queues : Tab Queue := []
  ctxs : Tab Ctx := []
  parts : Tab Part := []
  ports : Tab Port := []
  fab : Fabric := {}
  /-- packets for an exchange or span reduction that this module has not reached (R275, R297), oldest first -/
  early : List Packet := []
  /-- collectives waiting for an engine of each link die, in issue order (R273) -/
  collWait0 : List Nat := []
  collWait1 : List Nat := []
  /-- one dirty bit per MiB of physical address (R342) -/
  dirty : Tab Bool := []
  /-- the fault log ring (R358) -/
  flog : Tab W256 := []
  flogSeq : Nat := 0
  /-- times of the losses that R348 counts, newest first -/
  losses : List Nat := []
  hang : Hang := {}
  dump : Tab Byte := []
  capture : Option Capture := none
  traceSrc : Tab TraceSrc := []
  /-- the value of `CNT_WIN_CFG` in effect (R401) -/
  winCfg : W64 := 20
  traceSent : Tab Nat := []
  /-- buffers in an episode of loss (R404) -/
  traceEp : Tab Bool := []
  flash : Tab Byte := []
  staging : Tab Byte := []
  boot : Boot := {}
  pcie : Pcie := {}
  pwr : Power := {}
  stop : Stop := {}
  /-- how many free values have been drawn (log entry 9): the model's own field -/
  freeN : Nat := 0
  /-- what has been sent outside, newest first (log entry 10): the model's own field -/
  out : List Out := []
deriving DecidableEq, Repr

/-- What a Vufen transmitter sends (Tables 8.2, 15.12). -/
inductive Tx where
  | highImpedance
  | idle
  | training
  | flits
deriving DecidableEq, Repr

/-- What a Vufen receiver presents (Table 15.12). -/
inductive Rx where
  | highImpedance
  | unterminated
  | terminated
deriving DecidableEq, Repr

/-- The JTAG balls (Table 15.12). -/
inductive Jtag where
  | highImpedance
  | pullUps
  | active
deriving DecidableEq, Repr

/-- The state of the signal balls (Table 15.12): the open-drain outputs, true while driven low; the transmitters and receivers of
the Vufen ports; whether the PCIe lanes are out of high impedance, the sideband is served, and the presence and seal balls are
active; the JTAG balls. -/
structure Pins where
  alertLow : Bool
  thermtripLow : Bool
  pwrOkLow : Bool
  vufen : List Tx
  vufenRx : List Rx
  pcie : Bool
  sideband : Bool
  service : Bool
  jtag : Jtag
deriving DecidableEq, Repr

/-- The state of the block: the module, its output pins, and the commands that wait, first in, first out. -/
structure State where
  mod : Mod
  pins : Pins
  pending : List Instr
deriving DecidableEq, Repr

/-- Why a run would stop. No command of this block stops it: every condition the spec calls a fault is recorded in the
block's own state. Raised by nobody; safe. -/
inductive Fault where
  /-- raised by nobody; safe -/
  | none
deriving DecidableEq, Repr

/-- Why a command would have no meaning. -/
inductive Refusal where
  /-- raised by `exec` for a command that has no meaning yet; safe -/
  | notModelled (mnemonic : String)
deriving DecidableEq, Repr

/-- The module right after a whole-module reset has begun with power applied (R7, R417): bring-up step 1, rails waiting
for coolant flow, every register at its reset value. -/
def State.reset : State :=
  { mod := {}, pending := [],
    pins := { alertLow := false, thermtripLow := false, pwrOkLow := true, vufen := List.replicate 8 .idle,
              vufenRx := List.replicate 8 .unterminated, pcie := false, sideband := false, service := true, jtag := .active } }

end Sys2Proof.Machine
end

