-- ==== Sys2Proof/Machine/Ops.lean ====
section
/-! DEFINITION. The shared operations over the module's state: registers, numbered objects, free values, interrupts, the
fault log with what follows from a report, availability of partitions and ports, and module memory. -/

namespace Sys2Proof.Machine

/-! ### Registers (R7, R8) -/

/-- The register at BAR0 offset `off`, whose reset value is `rst`. -/
def Mod.regAt (m : Mod) (off rst : Nat) : Nat := (Tab.get (BitVec.ofNat 64 rst) m.regs off).toNat

/-- Stores the register at BAR0 offset `off`. -/
def Mod.setRegAt (m : Mod) (off rst v : Nat) : Mod :=
  { m with regs := Tab.set (BitVec.ofNat 64 rst) m.regs off (BitVec.ofNat 64 v) }

/-- Field `f` of the register with index `i`. -/
def Mod.get (m : Mod) (f : Fld) (i : Nat := 0) : Nat := bits (m.regAt (f.base + f.stride * i) f.reset) f.lo f.len

/-- Whether a one-bit field is 1. -/
def Mod.on (m : Mod) (f : Fld) (i : Nat := 0) : Bool := m.get f i != 0

/-- Sets field `f` of the register with index `i` to `v`. -/
def Mod.set (m : Mod) (f : Fld) (i v : Nat) : Mod :=
  m.setRegAt (f.base + f.stride * i) f.reset (setBits (m.regAt (f.base + f.stride * i) f.reset) f.lo f.len v)

/-- Adds `n` to a saturating counter field. -/
def Mod.bump (m : Mod) (f : Fld) (i n : Nat) : Mod := m.set f i (satAdd f.len (m.get f i) n)

/-- Adds `n` to a wrapping counter field. -/
def Mod.count (m : Mod) (f : Fld) (i n : Nat) : Mod := m.set f i (m.get f i + n)

/-- Sets or clears bit `b` of a bit-mask field. -/
def Mod.setBit (m : Mod) (f : Fld) (i b : Nat) (v : Bool) : Mod := m.set f i (setBits (m.get f i) b 1 (b2n v))

/-! ### Numbered objects -/

def Mod.queue (m : Mod) (i : Nat) : Queue := Tab.get {} m.queues i
def Mod.setQueue (m : Mod) (i : Nat) (q : Queue) : Mod := { m with queues := Tab.set {} m.queues i q }
def Mod.ctx (m : Mod) (c : Nat) : Ctx := Tab.get {} m.ctxs c
def Mod.setCtx (m : Mod) (c : Nat) (x : Ctx) : Mod := { m with ctxs := Tab.set {} m.ctxs c x }
def Mod.part (m : Mod) (p : Nat) : Part := Tab.get {} m.parts p
def Mod.setPart (m : Mod) (p : Nat) (x : Part) : Mod := { m with parts := Tab.set {} m.parts p x }
def Mod.port (m : Mod) (n : Nat) : Port := Tab.get {} m.ports n
def Mod.setPort (m : Mod) (n : Nat) (x : Port) : Mod := { m with ports := Tab.set {} m.ports n x }

/-- The context of queue `i` (R139: *i* = 16 *c* + *q*). -/
def qCtx (i : Nat) : Nat := i / 16

/-- The queues of context `c`, ascending. -/
def ctxQueues (c : Nat) : List Nat := (List.range 16).map (16 * c + ·)

/-- Every queue that has state beside its registers, ascending. -/
def Mod.liveQueues (m : Mod) : List Nat := m.queues.map (·.1)

/-- Applies `f` along a list of numbers. -/
def Mod.each (m : Mod) (l : List Nat) (f : Mod → Nat → Mod) : Mod := l.foldl f m

/-! ### Free values and the outside -/

/-- The number of the next free value, and the module after it is drawn. -/
def Mod.draw (m : Mod) : Nat × Mod := (m.freeN, { m with freeN := m.freeN + 1 })

/-- A free byte for each of `n` bytes. -/
def Mod.drawBytes (m : Mod) (n : Nat) : List Byte × Mod :=
  ((List.range n).map (fun j => Config.freeByte (m.freeN + j)), { m with freeN := m.freeN + n })

/-- Sends `o` outside. -/
def Mod.emit (m : Mod) (o : Out) : Mod := { m with out := o :: m.out }

/-- Whether every rail is up (R417, R452, R453). -/
def Mod.powered (m : Mod) : Bool := m.pwr.rails == .on

/-- A recalibration may have changed a trim or a seed (R423). -/
def Mod.calNew (m : Mod) : Mod := { m with boot := { m.boot with calChanged := true } }

/-- One nanosecond without a command: the time base counts from bring-up step 1 on (Table 14.1) while the rails are up
(R389). -/
def Mod.tick (m : Mod) : Mod :=
  if m.pwr.rails == .on || m.pwr.rails == .waitFlow then { m with time := (m.time + 1) % 2 ^ 64 } else m

/-- Whether a scheduled global stop holds the engines, until they resume (R413, R416). -/
def Mod.stopped (m : Mod) : Bool := decide (2 ≤ m.get F.TIME_STOP_STAT_state)

/-! ### Recovery mode (R427) -/

/-- Whether the module is in recovery mode without an image that it runs (R427). -/
def Mod.inRecovery (m : Mod) : Bool := m.on F.BOOT_STAT_recovery && m.boot.firmware.isNone

/-- Bytes [`off`, `off` + `n`) of the staging SRAM. -/
def Mod.stagingRead (m : Mod) (off n : Nat) : List Byte := (List.range n).map fun j => Tab.get 0 m.staging (off + j)

/-- Writes bytes of the staging SRAM, 32 MiB; bytes beyond it go nowhere. -/
def Mod.stagingWrite (m : Mod) (ws : List (Nat × Byte)) : Mod :=
  { m with staging := ws.foldl (fun t w => if w.1 < 2 ^ 25 then Tab.set 0 t w.1 w.2 else t) m.staging }

/-! ### Interrupts (R360, R433) -/

/-- Fires vector `vec` of function `fn` (0 PF0, v + 1 VF v): a message when it is unmasked, its Pending Bit otherwise. -/
def Mod.msix (m : Mod) (fn vec : Nat) : Mod :=
  if Tab.get false m.pcie.unmasked (fn * 16 + vec) then m.emit (.msix fn vec)
  else { m with pcie := { m.pcie with msixPend := Tab.set false m.pcie.msixPend (fn * 16 + vec) true } }

/-- The pending condition of PF0 vector 0, which also drives `ALERT_N` low. -/
def Mod.alert (m : Mod) : Bool := (m.regAt 0x50000 0) &&& (m.get F.FLT_IRQ_EN_en) % 2 ^ 28 != 0

/-- Applies `f` and fires PF0 vector 0 when its condition goes from none pending to some pending. -/
def Mod.withAlert (m : Mod) (f : Mod → Mod) : Mod :=
  let m' := f m
  if !m.alert && m'.alert then m'.msix 0 0 else m'

/-! ### Crash-dump triggers (R379) -/

/-- Begins a capture, or counts the trigger as missed while a dump is held or a capture runs. -/
def Mod.dumpBegin (m : Mod) (cause : Status) (trigger : Nat) : Mod :=
  if m.on F.DUMP_STAT_valid || m.on F.DUMP_STAT_busy then m.bump F.DUMP_STAT_missed 0 1
  else { (m.set F.DUMP_STAT_busy 0 1) with capture := some { cause := cause, trigger := trigger, start := m.time } }

/-- An automatic trigger. -/
def Mod.dumpAuto (m : Mod) (cause : Status) (trigger : Nat) : Mod :=
  if m.on F.DUMP_CTL_auto_en then m.dumpBegin cause trigger else m

/-! ### The persistent event log (R359, R424) -/

/-- Writes bytes of the flash; an unlisted byte of the flash is erased, 0xFF. -/
def flashWrite (t : Tab Byte) (off : Nat) : List Byte → Tab Byte
  | [] => t
  | b :: l => flashWrite (Tab.set 0xFF t off b) (off + 1) l

/-- Bytes of the flash. -/
def flashRead (t : Tab Byte) (off n : Nat) : List Byte := (List.range n).map fun j => Tab.get 0xFF t (off + j)

/-- Offset of event-log sector `s` in the flash (Table 14.5). -/
def evSector (s : Nat) : Nat := 0x2920000 + 0x10000 * s

/-- The 32-byte header of a sector (R424). -/
def evHeader (kind seq : Nat) : List Byte :=
  leBytes 4 0xE7E70001 ++ leBytes 4 kind ++ leBytes 8 seq ++ List.replicate 16 0

/-- Appends a record to an area that starts at sector `base`, at its slot `slot`; a first slot opens the sector. -/
def Mod.evAppend (m : Mod) (base kind slot : Nat) (r : W256) : Mod :=
  let off := evSector (base + slot / 2047)
  let fl := if slot % 2047 = 0 then
      flashWrite (m.flash.clear off (off + 0x10000)) off (evHeader kind (m.boot.evSeq + 1))
    else m.flash
  { m with flash := flashWrite fl (off + 32 + 32 * (slot % 2047)) (leBytes 32 r.toNat),
           boot := { m.boot with evSeq := if slot % 2047 = 0 then m.boot.evSeq + 1 else m.boot.evSeq } }

/-- Copies a record into the rolling area; a full area reuses the sector with the lowest sequence number. -/
def Mod.evRolling (m : Mod) (r : W256) : Mod :=
  let m := m.evAppend 16 0 m.boot.evRoll r
  { m with boot := { m.boot with evRoll := (m.boot.evRoll + 1) % (240 * 2047) } }

/-! ### The fault log (R357-R359) -/

/-- A report: what Table 12.2 records beside stamp and sequence number. -/
structure Rep where
  st : Status
  cls : Cls
  block : Nat
  ctx : Nat := 0xFF
  part : Nat := 0xFF
  port : Nat := 0xFF
  queue : Nat := 0xFFFF
  d0 : Nat := 0
  d1 : Nat := 0
deriving DecidableEq, Repr

/-- The 32 bytes of Table 12.2. -/
def Rep.word (r : Rep) (stamp seq : Nat) : W256 :=
  BitVec.ofNat 256 (stamp % 2 ^ 64 + (r.st % 2 ^ 16) * 2 ^ 64 + r.cls.code * 2 ^ 80 + (r.ctx % 256) * 2 ^ 88
    + (r.block % 2 ^ 16) * 2 ^ 96 + (r.part % 256) * 2 ^ 112 + (r.port % 256) * 2 ^ 120 + (r.queue % 2 ^ 16) * 2 ^ 128
    + (seq % 2 ^ 16) * 2 ^ 144 + (r.d0 % 2 ^ 32) * 2 ^ 160 + (r.d1 % 2 ^ 64) * 2 ^ 192)

/-- Puts a record at `head` of the ring; a full ring overwrites its oldest unread record (R358; full as R128 has it, log
entry 11). -/
def Mod.ringPut (m : Mod) (w : W256) : Mod :=
  let h := m.get F.FLT_LOG_PTR_head
  let h' := (h + 1) % 1024
  let m := { m with flog := Tab.set 0 m.flog h w, flogSeq := (m.flogSeq + 1) % 2 ^ 16 }
  let m := m.set F.FLT_LOG_PTR_head 0 h'
  if m.get F.FLT_LOG_PTR_tail = h' then
    (((m.set F.FLT_LOG_PTR_tail 0 ((h' + 1) % 1024)).bump F.FLT_LOG_PTR_lost 0 1)).withAlert
      fun m => m.set F.FLT_SUMMARY_log_lost 0 1
  else m

/-- Records a report in the fault log (R358); classes 4 and 5 and `ST_PART_RESET` also go to the persistent event log
(R359), and a class 4 report triggers a dump (R379). -/
def Mod.log (m : Mod) (r : Rep) : Mod :=
  let w := r.word m.time m.flogSeq
  let m := m.ringPut w
  let m := if r.st == ST_MODULE_FAILED || (r.st == ST_PART_DOWN && r.cls == .contained && r.d0 == 1) then
      { m with losses := m.time :: m.losses } else m
  let m := if r.cls == .contained || r.cls == .fatal || r.st == ST_PART_RESET then m.evRolling w else m
  if r.cls == .contained then m.dumpAuto r.st 2 else m

/-- A refused register access or command (class 1) of the block with base offset `block` * 2^16. -/
def Mod.refuse (m : Mod) (st : Status) (block : Nat) (off : Nat := 0) : Mod := m.log { st := st, cls := .refused, block := block, d0 := off }

/-- A refused access that concerns a context. -/
def Mod.refuseCtx (m : Mod) (st : Status) (block c : Nat) : Mod := m.log { st := st, cls := .refused, block := block, ctx := c }

/-- A refused access that concerns a queue. -/
def Mod.refuseQueue (m : Mod) (st : Status) (block i : Nat) : Mod :=
  m.log { st := st, cls := .refused, block := block, ctx := i / 16, queue := i }

/-- Numbers of the blocks that report, bits [31:16] of the block's base offset (Table 14.7). -/
def Blk.GEO := 0x0000
def Blk.PWR := 0x0001
def Blk.CLK := 0x0002
def Blk.BOOT := 0x0003
def Blk.SEC := 0x0004
def Blk.FLT := 0x0005
def Blk.HANG := 0x0006
def Blk.DUMP := 0x0007
def Blk.TIME := 0x0008
def Blk.CNT := 0x0010
def Blk.TRC := 0x0018
def Blk.WATCH := 0x001C
def Blk.PART := 0x0020
def Blk.MEM := 0x0040
def Blk.SC := 0x0060
def Blk.CTX := 0x0080
def Blk.Q := 0x00A0
def Blk.FLG := 0x00C0
def Blk.TDT := 0x0100
def Blk.MQ := 0x0180
def Blk.CAL := 0x01A0
def Blk.UPD := 0x01C0
def Blk.COL := 0x01E0
def Blk.LNK := 0x0200
def Blk.RTE := 0x0240
def Blk.CAST := 0x0280
def Blk.STEP := 0x02C0
def Blk.PCI := 0x0300

/-- Sets bits of `FLT_SUMMARY` (R360). -/
def Mod.summary (m : Mod) (f : Fld) (b : Nat := 0) : Mod := m.withAlert fun m => m.setBit f 0 b true

/-! ### Availability (R27) -/

/-- Whether partition `p` is in service. -/
def Mod.partUp (m : Mod) (p : Nat) : Bool := (m.get F.GEO_AVAIL_part_avail).testBit p

/-- Whether port `n` is `ACTIVE` or `DEGRADED`. -/
def Mod.portUp (m : Mod) (n : Nat) : Bool := (m.get F.GEO_AVAIL_port_avail).testBit n

/-- Clears a partition's bit, with its record: cause 0 reset, 1 declared failed, 2 thermal self-refresh. -/
def Mod.partLost (m : Mod) (p cause : Nat) : Mod :=
  if m.partUp p then
    (m.setBit F.GEO_AVAIL_part_avail 0 p false).log
      { st := ST_PART_DOWN, cls := .contained, block := Blk.PART, part := p, d0 := cause }
  else m

/-- Sets a partition's bit, with its record. -/
def Mod.partBack (m : Mod) (p : Nat) : Mod :=
  if m.partUp p then m
  else (m.setBit F.GEO_AVAIL_part_avail 0 p true).log { st := ST_PART_UP, cls := .event, block := Blk.PART, part := p }

/-- Makes the port's bit agree with its state (R27, R237), with the record of a change. -/
def Mod.portAvail (m : Mod) (n : Nat) : Mod :=
  let st := m.get F.LNK_STAT_state n
  let up := st == 2 || st == 3
  if up == m.portUp n then m
  else if up then
    (m.setBit F.GEO_AVAIL_port_avail 0 n true).log
      { st := ST_LINK_UP, cls := .event, block := Blk.LNK, port := n, d0 := st, d1 := m.get F.LNK_STAT_lane_mask n }
  else
    (m.setBit F.GEO_AVAIL_port_avail 0 n false).log
      { st := ST_LINK_DOWN, cls := .contained, block := Blk.LNK, port := n, d0 := st }

/-! ### The cast list (Table 11.1) -/

def Ce.desc (e : CastEntry) : Nat := bits e.raw.toNat 0 17
def Ce.method (e : CastEntry) : Nat := bits e.raw.toNat 19 2
def Ce.dirtyFrac (e : CastEntry) : Nat := bits e.raw.toNat 32 8
def Ce.mirrorOff (e : CastEntry) : Nat := bits e.raw.toNat 64 32
def Ce.parityOff (e : CastEntry) : Nat := bits e.raw.toNat 96 32
def Ce.curSince (e : CastEntry) : Nat := bits e.raw.toNat 128 64
def Ce.altSince (e : CastEntry) : Nat := bits e.raw.toNat 192 63
def Ce.altValid (e : CastEntry) : Bool := bit e.raw.toNat 255

/-- An entry with bits replaced. -/
def Ce.put (e : CastEntry) (lo len v : Nat) : CastEntry := { e with raw := BitVec.ofNat 256 (setBits e.raw.toNat lo len v) }

end Sys2Proof.Machine
end

