-- ==== Sys2Proof/Machine/Store.lean ====
section
/-! DEFINITION. Module memory: where an address lies (R197-R199), its bytes (R208, R209), poison (R218-R221), the shared cache
(R203-R207, R210) and the rings that the module writes (R128). -/

namespace Sys2Proof.Machine

/-! ### Module memory (R197-R202, R208, R220, R221) -/

/-- Kind of zone `z` in the active map. -/
def Mod.zoneKind (m : Mod) (z : Nat) : Nat := Tab.get 0 m.zones z % 4

/-- Place of zone `z` in the active map. -/
def Mod.zonePlace (m : Mod) (z : Nat) : Nat := Tab.get 0 m.zones z / 4

/-- Share of stack `s` that a zone of the given kind and place occupies (Table 7.1). -/
def zoneShare (kind place s : Nat) : Nat :=
  if kind = 0 then 2 ^ 30 else if kind = 1 then (if s / 4 = place then 2 ^ 32 else 0)
  else if s = place then 2 ^ 34 else 0

/-- Sum of the shares that zones below `z` occupy in stack `s` (R199). -/
def Mod.zoneBase (m : Mod) (s : Nat) : Nat → Nat
  | 0 => 0
  | z + 1 => m.zoneBase s z + zoneShare (m.zoneKind z) (m.zonePlace z) s

/-- Stack of a physical address (R199). -/
def Mod.stackOf (m : Mod) (pa : Nat) : Nat :=
  let z := bits pa 34 6
  match m.zoneKind z with
  | 0 => bits pa 12 4 ^^^ bits pa 20 4 ^^^ bits pa 28 4
  | 1 => 4 * m.zonePlace z + (bits pa 12 2 ^^^ bits pa 20 2 ^^^ bits pa 28 2)
  | _ => m.zonePlace z

/-- Stack-local address of a physical address (R199). -/
def Mod.localOf (m : Mod) (pa : Nat) : Nat :=
  let z := bits pa 34 6
  let s := m.stackOf pa
  m.zoneBase s z + match m.zoneKind z with
    | 0 => bits pa 16 18 * 4096 + bits pa 0 12
    | 1 => bits pa 14 20 * 4096 + bits pa 0 12
    | _ => bits pa 0 34

/-- The byte of HBM that a physical address names: stack * 2^36 + stack-local address. -/
def Mod.key (m : Mod) (pa : Nat) : Nat := m.stackOf pa * 2 ^ 36 + m.localOf pa

/-- The byte at a physical address (R208: the one copy). -/
def Mod.rdByte (m : Mod) (pa : Nat) : Byte := Tab.get 0 m.mem (m.key pa)

/-- `n` bytes from a physical address. -/
def Mod.rd (m : Mod) (pa n : Nat) : List Byte := (List.range n).map fun j => m.rdByte (pa + j)

/-- The little-endian number of `n` bytes at a physical address. -/
def Mod.rdNat (m : Mod) (pa n : Nat) : Nat := leNat (m.rd pa n)

/-- Whether word `w` (stack * 2^33 + word of the stack) is poisoned. -/
def Mod.wordPoisoned (m : Mod) (w : Nat) : Bool := Tab.get false m.poison w != (m.part (w / 2 ^ 33)).fill

/-- Whether the word that holds a physical address is poisoned. -/
def Mod.poisoned (m : Mod) (pa : Nat) : Bool := m.wordPoisoned (m.key pa / 8)

/-- Whether some word of [`pa`, `pa` + `n`) is poisoned. -/
def Mod.poisonedIn (m : Mod) (pa n : Nat) : Bool := (List.range n).any fun j => m.poisoned (pa + j)

/-- Marks word `w` poisoned or good. -/
def Mod.setPoison (m : Mod) (w : Nat) (p : Bool) : Mod :=
  { m with poison := Tab.set false m.poison w (p != (m.part (w / 2 ^ 33)).fill) }

/-- Stores one byte. -/
def Mod.wrByte (m : Mod) (pa : Nat) (b : Byte) : Mod := { m with mem := Tab.set 0 m.mem (m.key pa) b }

/-- Stores bytes given with their physical addresses; a word that they cover whole loses its poison (R221). -/
def Mod.wrList (m : Mod) (ws : List (Nat × Byte)) : Mod :=
  let m := ws.foldl (fun m w => m.wrByte w.1 w.2) m
  ws.foldl (fun m w =>
    if w.1 % 8 = 0 && m.poisoned w.1 && (List.range 8).all (fun j => ws.any fun x => x.1 == w.1 + j) then
      m.setPoison (m.key w.1 / 8) false
    else m) m

/-- Stores single nibbles: address, upper half, value; the other nibble of the byte stays as it is (R31, R173). -/
def Mod.wrHalves (m : Mod) (hs : List (Nat × Bool × Nat)) : Mod :=
  hs.foldl (fun m h =>
    let b := (m.rdByte h.1).toNat
    m.wrByte h.1 (BitVec.ofNat 8 (if h.2.1 then b % 16 + h.2.2 * 16 else b / 16 * 16 + h.2.2))) m

/-- Bytes paired with the addresses they go to. -/
def atAddr (pa : Nat) (l : List Byte) : List (Nat × Byte) := (List.range l.length).zip l |>.map fun x => (pa + x.1, x.2)

/-! ### The shared cache (R203-R207, R210)

`mem` is the one coherent copy of every byte (R208); a slice holds which of its sectors are present and dirty, and in which way
and mode each line stands. -/

/-- How an access reaches a slice: a read, a write, an atomic request (R211). -/
inductive Acc where
  | rd
  | wr
  | atom
deriving DecidableEq, Repr

/-- Set of line `l`, the stack-local address divided by 128 (R207). -/
def setOf (l : Nat) : Nat := bits l 0 14 ^^^ bits l 14 14
/-- Key of the set of line `l` of slice `p`. -/
def setKey (p l : Nat) : Nat := p * 2 ^ 14 + setOf l
def Mod.waySet (m : Mod) (k : Nat) : WaySet := Tab.get {} m.slices k
/-- The way that holds line `l`. -/
def WaySet.find (s : WaySet) (l : Nat) : Option (Nat × Line) := s.ways.find? fun e => e.2.tag == l
/-- Line `l` of slice `p`; without a valid sector where it is absent. -/
def Mod.line (m : Mod) (p l : Nat) : Line := (((m.waySet (setKey p l)).find l).map (·.2)).getD { tag := l }
/-- Whether line `l` stands in slice `p`. -/
def Mod.hasLine (m : Mod) (p l : Nat) : Bool := ((m.waySet (setKey p l)).find l).isSome
/-- Changes line `l` of slice `p`, if it stands there. -/
def Mod.modLine (m : Mod) (p l : Nat) (f : Line → Line) : Mod :=
  let k := setKey p l
  let s := m.waySet k
  match s.find l with
  | some e => { m with slices := Tab.set {} m.slices k { s with ways := Tab.set {} s.ways e.1 (f e.2) } }
  | none => m

/-- Tree pseudo-LRU over 16 leaves, of which ways 0 to 11 are the set's: node `2^d + v` has the ways with the upper bits `v` below
it, and its bit points at the half to replace next (R207; the tree is the model's, DESIGN CHOICE, log entry 78). A use of way `w`
turns every node above it away from it. -/
def plruUse (t w : Nat) : Nat :=
  (List.range 4).foldl (fun t d => setBits t (2 ^ d + w / 2 ^ (4 - d)) 1 (1 - w / 2 ^ (3 - d) % 2)) t
/-- The way to replace among ways `a` to 11. -/
def plruPick (t a : Nat) : Nat :=
  (List.range 4).foldl (fun v d =>
    let open_ (x : Nat) : Bool := decide (a < (2 * v + x + 1) * 2 ^ (3 - d)) && decide ((2 * v + x) * 2 ^ (3 - d) < 12)
    let b := bits t (2 ^ d + v) 1
    2 * v + if open_ b then b else 1 - b) 0

/-- Bytes moved between slice `p` and its stack, of which `extra` were not requested (R205, R398). -/
def Mod.moved (m : Mod) (p : Nat) (out : Bool) (n extra : Nat) : Mod :=
  (m.count F.CNT_MOD_count (128 + 8 * p + b2n out) n).count F.MEM_WASTE_bytes p extra

/-- Writes line `l` of slice `p` back (R205, R206): the dirty sectors of a `FINE` line; the whole granule of a `BURST` line, its
absent sectors read first. -/
def Mod.writeBack (m : Mod) (p l : Nat) : Mod :=
  let x := m.line p l
  if x.dirty = 0 then m
  else if x.fine then (m.moved p true (32 * popCount 4 x.dirty) 0).modLine p l fun x => { x with dirty := 0 }
  else
    let y := m.line p (l ^^^ 1)
    let absent := 8 - popCount 4 x.valid - popCount 4 y.valid
    let dirty := popCount 4 x.dirty + popCount 4 y.dirty
    let m := (m.moved p false (32 * absent) (32 * absent)).moved p true 256 (256 - 32 * dirty)
    (m.modLine p l fun x => { x with dirty := 0 }).modLine p (l ^^^ 1) fun x => { x with dirty := 0 }

/-- Drops every line of slice `p`. -/
def Mod.sliceDrop (m : Mod) (p : Nat) : Mod := { m with slices := m.slices.clear (p * 2 ^ 14) ((p + 1) * 2 ^ 14) }

/-- Slice `p` writes every dirty line back and is empty after it (R210). -/
def Mod.sliceFlush (m : Mod) (p : Nat) : Mod :=
  let ls := (m.slices.filter fun e => e.1 / 2 ^ 14 == p).flatMap fun e => e.2.ways.map (·.2.tag)
  (m.each ls fun m l => m.writeBack p l).sliceDrop p

/-- Gives line `l` of slice `p` a way, if it has none: a free one before the one that pseudo-LRU names. Ways below `atom_ways` are
for atomic requests, which may use every way (R207; DESIGN CHOICE, log entry 78). -/
def Mod.allocate (m : Mod) (p l : Nat) (fine : Bool) (acc : Acc) : Mod :=
  if m.hasLine p l then m
  else
    let s := m.waySet (setKey p l)
    let a := if acc = .atom then 0 else m.get F.SC_CFG_atom_ways p
    let free := (List.range 12).find? fun w => a ≤ w && !(s.ways.any (·.1 == w))
    let w := free.getD (plruPick s.plru a)
    let m := if free.isSome then m else m.writeBack p (Tab.get {} s.ways w).tag
    let s := m.waySet (setKey p l)
    { m with slices := Tab.set {} m.slices (setKey p l) { s with ways := s.ways.put w { tag := l, fine := fine } } }

/-- Sectors of line `l` that the stack-local range [`a`, `a` + `n`) touches, and those it covers whole. -/
def sectorsIn (l a n : Nat) : Nat :=
  ((List.range 4).map fun s => b2n (decide (a < 128 * l + 32 * s + 32) && decide (128 * l + 32 * s < a + n)) * 2 ^ s).sum
def sectorsOf (l a n : Nat) : Nat :=
  ((List.range 4).map fun s => b2n (decide (a ≤ 128 * l + 32 * s) && decide (128 * l + 32 * s + 32 ≤ a + n)) * 2 ^ s).sum

/-- Sectors of line `l` that an access must have fetched and that are absent: a sector written whole needs no fetch (R209). -/
def Mod.lacks (m : Mod) (p l a n : Nat) (acc : Acc) : Nat :=
  let need := if acc = .wr then sectorsIn l a n - sectorsOf l a n else sectorsIn l a n
  need - (need &&& (m.line p l).valid)

/-- An access to the stack-local bytes [`a`, `a` + `n`) of one granule `g` of slice `p` (R204-R207): hits and misses are counted,
lines allocated in its mode, what a line lacks is fetched, whole granules for a `BURST` line and sectors for a `FINE` one. -/
def Mod.granule (m : Mod) (p g a n : Nat) (fine : Bool) (acc : Acc) : Mod :=
  let ls := [2 * g, 2 * g + 1].filter fun l => sectorsIn l a n != 0
  let hits := (ls.map fun l => popCount 4 (sectorsIn l a n &&& (m.line p l).valid)).sum
  let all := (ls.map fun l => popCount 4 (sectorsIn l a n)).sum
  let m := (m.count F.CNT_MOD_count (132 + 8 * p) hits).count F.CNT_MOD_count (133 + 8 * p) (all - hits)
  let m := m.each ls fun m l => m.allocate p l fine acc
  let m := m.each (ls.filter fun l => (m.line p l).fine) fun m l =>
    let x := m.lacks p l a n acc
    let asked := ((List.range 4).map fun s => if x.testBit s then
      min (a + n) (128 * l + 32 * s + 32) - max a (128 * l + 32 * s) else 0).sum
    m.moved p false (32 * popCount 4 x) (32 * popCount 4 x - asked)
  let m := if ls.any fun l => !(m.line p l).fine && m.lacks p l a n acc != 0 then
      let m := m.each [2 * g, 2 * g + 1] fun m l => m.allocate p l false acc
      let m := m.each [2 * g, 2 * g + 1] fun m l => m.modLine p l fun x => if x.fine then x else { x with valid := 15 }
      m.moved p false 256 (256 - n)
    else m
  m.each ls fun m l =>
    let t := sectorsIn l a n
    let m := m.modLine p l fun x => { x with valid := x.valid ||| t, dirty := if acc = .rd then x.dirty else x.dirty ||| t }
    let s := m.waySet (setKey p l)
    { m with slices := Tab.set {} m.slices (setKey p l) { s with plru := plruUse s.plru (((s.find l).map (·.1)).getD 0) } }

/-- An access to [`pa`, `pa` + `n`), of which there is one byte at least: each granule of a stack in service goes through its home slice,
whose memory side wakes for it (R203, R208). -/
def Mod.reach (m : Mod) (fine : Bool) (acc : Acc) (pa n : Nat) : Mod :=
  m.each (if n = 0 then [] else (List.range (ceilDiv (pa % 256 + n) 256)).map (pa / 256 + ·)) fun m g =>
    let p := m.stackOf (256 * g)
    let a := max pa (256 * g)
    let k := min (pa + n) (256 * g + 256) - a
    if !m.partUp p then m
    else
      let m := m.set F.MEM_STACK_STAT_gated p 0
      let m := m.count F.CNT_MOD_count (134 + 8 * p + b2n (acc != .rd)) k
      let base := m.localOf (256 * g)
      m.granule p (base / 256) (base + (a - 256 * g)) k fine acc

/-- An atomic request to the line of `pa`, of `n` bytes (R211): counted in the slice. -/
def Mod.atomic (m : Mod) (fine : Bool) (pa n : Nat) : Mod :=
  (m.count F.SC_ATOM_CNT_requests (m.stackOf pa) 1).reach fine .atom pa n

/-- Stores bytes from a physical address on, by an access in the mode given (R204). -/
def Mod.wr (m : Mod) (pa : Nat) (l : List Byte) (fine : Bool := false) : Mod := (m.wrList (atAddr pa l)).reach fine .wr pa l.length

/-- Runs of consecutive addresses: first and count. -/
def runsOf : List Nat → List (Nat × Nat)
  | [] => []
  | a :: t => match runsOf t with
    | (b, n) :: r => if a + 1 = b then (a, n + 1) :: r else (a, 1) :: (b, n) :: r
    | [] => [(a, 1)]

/-- Stores whole bytes and nibbles, by accesses in the modes that `fine` gives (R204, R209). -/
def Mod.wrOuts (m : Mod) (fine : Nat → Bool) (ws : List (Nat × Byte)) (hs : List (Nat × Bool × Nat)) : Mod :=
  let runs : List (Nat × Nat) := runsOf (ws.map (·.1)) ++ hs.map fun h => (h.1, 1)
  runs.foldl (fun m x => m.reach (fine x.1) .wr x.1 x.2) ((m.wrList ws).wrHalves hs)

/-- The pages of 4 KiB that [`pa`, `pa` + `n`) reaches: first byte and bytes of each part. -/
def pagesOf (pa n : Nat) : List (Nat × Nat) :=
  (List.range (ceilDiv (pa % 4096 + n) 4096)).map fun j =>
    let a := max pa (pa / 4096 * 4096 + 4096 * j)
    (a, min (pa + n) (pa / 4096 * 4096 + 4096 * j + 4096) - a)

/-- Records the part of an internal access that reaches a stack out of service: once for each such stack (R202). -/
def Mod.dropped (m : Mod) (l : List (Nat × Nat)) : Mod :=
  m.each ((l.map fun x => m.stackOf x.1).dedup.filter fun s => !m.partUp s) fun m s =>
    m.log { st := ST_PART_DOWN, cls := .event, block := Blk.MEM, part := s,
            d1 := m.localOf (((l.find? fun x => m.stackOf x.1 == s).map (·.1)).getD 0) }

/-- A module-internal write by bare address, in `BURST` mode but for event records (R204); the bytes of a stack out of service are
dropped and recorded (R202). -/
def Mod.wrInt (m : Mod) (pa : Nat) (l : List Byte) (fine : Bool := false) : Mod :=
  let ps := pagesOf pa l.length
  let up (x : Nat × Nat) : Bool := m.partUp (m.stackOf x.1)
  if ps.all up then m.wr pa l fine
  else (ps.filter up).foldl (fun m x => m.wr x.1 (slice l (x.1 - pa) x.2) fine) (m.dropped ps)

/-- A module-internal read by bare address: bytes of a stack out of service are undefined and recorded (R202). -/
def Mod.rdInt (m : Mod) (pa n : Nat) : List Byte × Mod :=
  let ps := pagesOf pa n
  if ps.all fun x => m.partUp (m.stackOf x.1) then (m.rd pa n, m.reach false .rd pa n)
  else
    let (k, m) := (m.dropped ps).draw
    ((List.range n).map fun j =>
      if m.partUp (m.stackOf (pa + j)) then m.rdByte (pa + j) else BitVec.ofNat 8 (Config.freeNat k / 256 ^ j), m.reach false .rd pa n)

/-- Stacks that hold a byte of [`pa`, `pa` + `n`), by zone (R200, R202): those that a zone the range overlaps uses. -/
def Mod.stacksOf (m : Mod) (pa n : Nat) : List Nat :=
  (List.range 16).filter fun s =>
    (List.range 64).any fun z =>
      pa < (z + 1) * 2 ^ 34 && z * 2 ^ 34 < pa + n && zoneShare (m.zoneKind z) (m.zonePlace z) s != 0

/-! ### Memory errors met by a read (R219, R220, R222) -/

/-- A word with one or two bit errors is corrected and counted (R219); more than `ce_limit` within one hour is an event. -/
def Mod.eccCorrected (m : Mod) (s : Nat) : Mod :=
  let m := m.bump F.MEM_ECC_CNT_ce s 1
  let x := m.part s
  let old := x.ceRecent.filter (fun t => m.time < t + 3600 * 10 ^ 9)
  let m := m.setPart s { x with ceRecent := m.time :: old }
  if old.length = m.get F.MEM_ECC_CFG_ce_limit then
    m.log { st := ST_MEM_CE_LIMIT, cls := .event, block := Blk.MEM, part := s }
  else m

/-- A word with an uncorrectable error is poisoned, counted and logged once (R220). `src` is the `source` code of
`MEM_ERR_ADDR`. A word already poisoned is not new. -/
def Mod.poisonDetected (m : Mod) (w src : Nat) : Mod :=
  if m.wordPoisoned w then m
  else
    let s := w / 2 ^ 33
    let m := (m.setPoison w true).bump F.MEM_ECC_CNT_ue s 1
    let m := m.set F.MEM_ERR_ADDR_local s ((w % 2 ^ 33) * 8)
    let m := (m.set F.MEM_ERR_ADDR_source s src).set F.MEM_ERR_ADDR_valid s 1
    let x := m.part s
    let m := m.setPart s { x with ueRecent := m.time :: x.ueRecent.filter (fun t => m.time < t + 10 ^ 9) }
    m.log { st := ST_MEM_UNCORR, cls := .error, block := Blk.MEM, part := s, d1 := (w % 2 ^ 33) * 8 }

/-! ### Rings in module memory (R128) -/

/-- Puts a record of `sz` bytes at `head` of a ring with the given base, size and pointer fields; a full ring drops it and
counts it lost. -/
def Mod.ringWrite (m : Mod) (base n sz : Nat) (head tail lost : Fld) (i : Nat) (l : List Byte) (fine : Bool := false) : Mod :=
  let h := m.get head i
  if (h + 1) % n = m.get tail i % n then m.bump lost i 1
  else (m.wrInt (base + sz * h) l fine).set head i ((h + 1) % n)


end Sys2Proof.Machine
end

