-- ==== Sys2Proof/Machine/Operands.lean ====
section
/-! DEFINITION. The operand forms: records (R167, R168, R196), region entries (R134), descriptors (R153), plan words
(R99), and the checks that a record passes before it executes (R170 checks 1 to 6). -/

namespace Sys2Proof.Machine

/-! ### Records (Table 6.1) -/

def Rc.opcode (r : W1024) : Nat := bits r.toNat 0 8
def Rc.ver (r : W1024) : Nat := bits r.toNat 8 4
def Rc.nWait (r : W1024) : Nat := bits r.toNat 12 3
def Rc.nSig (r : W1024) : Nat := bits r.toNat 16 3
def Rc.peMask (r : W1024) : Nat := bits r.toNat 20 4
def Rc.sigSet (r : W1024) : Nat := bits r.toNat 24 4
def Rc.layer (r : W1024) : Nat := bits r.toNat 32 16
def Rc.waitFlag (r : W1024) (w : Nat) : Nat := bits r.toNat (64 + 16 * w) 16
def Rc.sigFlag (r : W1024) (s : Nat) : Nat := bits r.toNat (128 + 16 * s) 16
def Rc.waitTgt (r : W1024) (w : Nat) : Nat := bits r.toNat (192 + 64 * w) 64
def Rc.sigVal (r : W1024) (s : Nat) : Nat := bits r.toNat (448 + 32 * s) 32
def Rc.desc (r : W1024) (d : Nat) : Nat := bits r.toNat (576 + 17 * d) 17
def Rc.p (r : W1024) (n : Nat) : Nat := bits r.toNat (704 + 64 * n) 64
/-- Bits [`lo` + `len` - 1 : `lo`] of operand word `n`. -/
def Rc.pf (r : W1024) (n lo len : Nat) : Nat := bits (Rc.p r n) lo len

/-- The descriptor slot value that names no tensor. -/
def noDesc : Nat := 0x1FFFF

/-- What a slot is used for (Table 6.2). -/
inductive Use where
  | rd
  | wr
  | atom
deriving DecidableEq, Repr

/-- A row of Table 6.2: code, slots in use (slot, required, use), version 1 encoding, and the bits of P0 to P4 that the
opcode's tables define. -/
structure OpRow where
  code : Nat
  slots : List (Nat × Bool × Use)
  v1 : Bool
  pmask : List Nat
deriving DecidableEq, Repr

/-- Bits [`hi` : `lo`] set. -/
def field (hi lo : Nat) : Nat := (2 ^ (hi - lo + 1) - 1) * 2 ^ lo

/-- P0 of a collective (Table 6.8). -/
def collP0 : Nat := field 21 0 + field 63 32

/-- Table 6.2, matrix and vector opcodes. -/
def opTable0 : List OpRow :=
  [⟨0x00, [], true, [0, 0, 0, 0, 0]⟩,
   ⟨0x10, [(0, true, .rd), (1, true, .rd), (2, true, .wr), (3, false, .rd), (4, false, .rd)], true,
     [field 63 0, field 59 0, field 31 0, field 37 0, field 31 0]⟩,
   ⟨0x11, [(0, true, .rd), (1, true, .rd), (2, true, .wr), (3, false, .rd), (4, false, .rd)], true,
     [field 63 0, field 59 0, field 31 0, field 37 0, field 31 0]⟩,
   ⟨0x12, [(0, true, .rd), (1, true, .rd), (2, true, .wr), (3, false, .rd), (4, false, .rd)], true,
     [field 63 0, field 53 0, field 51 0, field 51 0, field 25 0]⟩,
   ⟨0x13, [(0, true, .rd), (1, true, .rd), (2, true, .rd), (3, true, .wr), (4, false, .rd), (5, false, .wr)], false,
     [field 47 0, field 45 0, field 63 0, field 15 0, 0]⟩,
   ⟨0x20, [(0, true, .rd), (1, false, .rd), (2, false, .rd), (3, true, .wr)], true,
     [field 5 0 + field 63 32, field 37 0, field 31 0, 0, 0]⟩,
   ⟨0x21, [(0, true, .rd), (1, true, .wr)], true, [field 2 0 + field 5 4, 0, 0, 0, 0]⟩,
   ⟨0x22, [(0, true, .rd), (1, false, .rd), (2, false, .rd), (3, true, .wr), (4, false, .wr)], true,
     [field 0 0 + field 63 32, 0, 0, 0, 0]⟩,
   ⟨0x23, [(0, true, .rd), (1, false, .rd), (2, true, .wr)], true,
     [field 0 0 + field 63 32, field 31 0, 0, 0, 0]⟩]

/-- Table 6.2, data movement and scatter-reduce. -/
def opTable1 : List OpRow :=
  [⟨0x30, [(0, true, .rd), (1, true, .wr)], true, [field 39 0, field 39 0, field 39 0, 0, 0]⟩,
   ⟨0x31, [(0, true, .rd), (1, true, .rd), (2, true, .wr)], true, [field 0 0, 0, 0, 0, 0]⟩,
   ⟨0x32, [(0, true, .rd), (1, true, .rd), (2, true, .wr)], true, [field 0 0, 0, 0, 0, 0]⟩,
   ⟨0x33, [(0, true, .rd), (1, true, .wr)], true, [field 7 0, 0, 0, 0, 0]⟩,
   ⟨0x34, [], true, [field 49 0, field 49 0, field 39 0, 0, 0]⟩,
   ⟨0x35, [], false, [field 15 0, 0, 0, 0, 0]⟩,
   ⟨0x40, [(0, true, .rd), (1, false, .rd), (2, true, .atom)], true, [field 4 0, 0, 0, 0, 0]⟩,
   ⟨0x41, [(0, true, .rd), (1, true, .rd), (2, true, .atom), (3, false, .wr)], false, [0, 0, 0, 0, 0]⟩]

/-- Table 6.2, collectives. -/
def opTable2 : List OpRow :=
  [⟨0x50, [(0, true, .rd), (1, true, .wr)], true, [collP0, 0, 0, 0, 0]⟩,
   ⟨0x51, [(0, true, .rd), (1, true, .wr)], true, [collP0, 0, 0, 0, 0]⟩,
   ⟨0x52, [(0, true, .rd), (1, true, .wr)], true, [collP0, 0, 0, 0, 0]⟩,
   ⟨0x53, [(0, true, .rd), (1, true, .wr)], true, [collP0, 0, 0, 0, 0]⟩,
   ⟨0x54, [(0, true, .rd), (1, true, .wr)], true, [collP0, field 5 0, 0, 0, 0]⟩,
   ⟨0x55, [(0, true, .rd), (1, true, .wr), (2, true, .wr), (3, true, .wr), (4, false, .wr), (5, true, .wr)], false,
     [collP0, field 29 0, 0, 0, 0]⟩]

/-- Table 6.2, step control and maintenance. -/
def opTable3 : List OpRow :=
  [⟨0x60, [(0, false, .rd)], false, [field 63 0, field 15 0, 0, 0, 0]⟩,
   ⟨0x61, [(0, false, .rd)], false, [0, 0, 0, 0, 0]⟩,
   ⟨0x62, [], false, [field 12 0 + field 28 16 + field 44 32 + field 60 48, field 32 0, 0, 0, 0]⟩,
   ⟨0x63, [], false, [field 0 0, 0, 0, 0, 0]⟩,
   ⟨0x64, [], false, [field 25 0 + field 47 32, field 63 0, 0, 0, 0]⟩,
   ⟨0x70, [], true, [field 49 0, field 29 0, 0, 0, 0]⟩,
   ⟨0x71, [], false, [field 12 0, field 31 0, field 63 0, field 63 0, 0]⟩,
   ⟨0x72, [], false, [field 19 0 + field 63 32, field 63 0, field 63 0, field 31 0, 0]⟩,
   ⟨0x73, [], false, [field 49 0, field 16 0, 0, 0, 0]⟩]

/-- Table 6.2. -/
def opTable : List OpRow := opTable0 ++ opTable1 ++ opTable2 ++ opTable3

/-- The row of an opcode; reserved codes have none. -/
def opRow (code : Nat) : Option OpRow := opTable.find? (·.code == code)

/-- Optional slots that the record's fields call for (true) or rule out (false): `ELTWISE` (R178) and `epi` (R174, R175). -/
def slotRules (r : W1024) : List (Nat × Bool) :=
  let o := Rc.opcode r
  if o = 0x20 then
    let fn := Rc.pf r 0 0 6
    [(1, (1 ≤ fn && fn ≤ 7) || (0x10 ≤ fn && fn ≤ 0x12)), (2, fn == 5 || fn == 0x10)]
  else if o = 0x10 || o = 0x11 || o = 0x12 then
    let epi := if o = 0x12 then Rc.pf r 4 17 3 else Rc.pf r 1 51 3
    if epi ≤ 5 then [(3, epi == 1 || epi == 3 || epi == 5), (4, epi == 4 || epi == 5)] else []
  else []

/-- Check 3 of R170: whether reserved bits, unused waits and signals, unused descriptor slots and undefined operand bits are
as R168 demands. -/
def recordForm (row : OpRow) (r : W1024) : Bool :=
  let x := r.toNat
  let nw := Rc.nWait r
  let ns := Rc.nSig r
  zeroIn x [(15, 1), (19, 1), (28, 4), (48, 16), (678, 26)]
  && decide (nw ≤ 4) && decide (ns ≤ 4)
  && Rc.peMask r >>> nw == 0 && Rc.sigSet r >>> ns == 0
  && (List.range 4).all (fun w => decide (w < nw) || (Rc.waitFlag r w == 0 && Rc.waitTgt r w == 0))
  && (List.range 4).all (fun s => decide (s < ns) || (Rc.sigFlag r s == 0 && Rc.sigVal r s == 0))
  && (List.range 6).all (fun d => row.slots.any (·.1 == d) || Rc.desc r d == noDesc)
  && (slotRules r).all (fun e => e.2 || Rc.desc r e.1 == noDesc)
  && (List.range 5).all (fun n => Rc.p r n &&& (row.pmask.getD n 0) == Rc.p r n)
  && (row.code != 0x20 || Rc.pf r 0 0 6 == 0x13 || (Rc.pf r 1 32 6 == 0 && Rc.pf r 2 0 32 == 0))

/-- Slots that hold no tensor although they are required or called for (R168, first test of check 5). -/
def slotMissing (row : OpRow) (r : W1024) : Bool :=
  row.slots.any (fun s => s.2.1 && Rc.desc r s.1 == noDesc)
  || (slotRules r).any (fun e => e.2 && Rc.desc r e.1 == noDesc)

/-- The native form of a version 1 record (R196, Table 6.11). -/
def v1Native (r : Nat) : W1024 :=
  let op := bits r 0 8
  let hdr := op + 2 * 2 ^ 8 + bits r 12 2 * 2 ^ 12 + bits r 14 2 * 2 ^ 16 + bits r 16 16 * 2 ^ 32
  let waits := bits r 64 32 * 2 ^ 64
  let sigs := bits r 96 32 * 2 ^ 128
  let tgts := bits r 128 32 * 2 ^ 192 + bits r 160 32 * 2 ^ 256
  let vals := bits r 192 64 * 2 ^ 448
  let d (k : Nat) : Nat := let x := bits r (256 + 16 * k) 16; (if x = 0xFFFF then noDesc else x) * 2 ^ (576 + 17 * k)
  let descs := d 0 + d 1 + d 2 + d 3 + noDesc * 2 ^ (576 + 68) + noDesc * 2 ^ (576 + 85)
  let p (k : Nat) : Nat := bits r (320 + 64 * k) 64
  let ps :=
    if op = 0x12 then
      -- in_ext 1, k_ext 1, stride 1, dilation 1, pads 0, conv_dims 2
      p 0 * 2 ^ 704 + (1 + 2 * 2 ^ 52) * 2 ^ 768 + p 1 * 2 ^ 832 + p 2 * 2 ^ 896
    else if (op = 0x10 || op = 0x11) && bits (p 1) 36 3 == 1 then
      p 0 * 2 ^ 704 + p 1 * 2 ^ 768 + p 2 * 2 ^ 832 + 1 * 2 ^ 896
    else p 0 * 2 ^ 704 + p 1 * 2 ^ 768 + p 2 * 2 ^ 832
  BitVec.ofNat 1024 (hdr + waits + sigs + tgts + vals + descs + ps)

/-- Whether bits that version 1 leaves reserved are zero (R196, checked as R168 checks native ones). -/
def v1Form (r : Nat) : Bool :=
  zeroIn r [(32, 32)] && decide (bits r 12 2 ≤ 2) && decide (bits r 14 2 ≤ 2)

/-! ### Region entries (Table 5.1) -/

def Rgn.base (g : W256) : Nat := bits g.toNat 0 40
def Rgn.size (g : W256) : Nat := bits g.toNat 64 40
def Rgn.valid (g : W256) : Bool := bit g.toNat 128
def Rgn.ileave (g : W256) : Nat := bits g.toNat 129 2
def Rgn.place (g : W256) : Nat := bits g.toNat 131 4
/-- `FINE` access mode (R204). -/
def Rgn.fine (g : W256) : Bool := bit g.toNat 135
def Rgn.rd (g : W256) : Bool := bit g.toNat 136
def Rgn.wr (g : W256) : Bool := bit g.toNat 137
def Rgn.atom (g : W256) : Bool := bit g.toNat 138
def Rgn.hostwin (g : W256) : Bool := bit g.toNat 139
def Rgn.hostAddr (g : W256) : Nat := bits g.toNat 192 64

/-- The region entry of context `c`. -/
def Mod.region (m : Mod) (c n : Nat) : W256 := Tab.get 0 m.regions (1024 * c + n)

/-- Whether an entry passes R135 for context `c`. -/
def Mod.regionOk (m : Mod) (c : Nat) (g : W256) : Bool :=
  zeroIn g.toNat [(40, 24), (104, 24), (140, 52)] &&
  (!Rgn.valid g ||
    (let pm := m.get F.CTX_CFG_part_mask c
     decide (Rgn.ileave g ≠ 3) && Rgn.base g % 65536 == 0 && Rgn.size g % 65536 == 0 && decide (Rgn.size g ≠ 0)
     && decide (Rgn.base g + Rgn.size g ≤ 2 ^ 40)
     && (if Rgn.hostwin g then Rgn.hostAddr g % 4096 == 0 else Rgn.hostAddr g == 0)
     && (match Rgn.ileave g with
         | 0 => Rgn.place g == 0
         | 1 => decide (Rgn.place g < 4) && bits pm (4 * Rgn.place g) 4 != 0
         | _ => pm.testBit (Rgn.place g))))

/-- Whether [`base`, `base` + `size`) agrees with every zone it overlaps (R200). -/
def Mod.zoneOk (m : Mod) (g : W256) : Bool :=
  Rgn.hostwin g || (List.range 64).all fun z =>
    !(decide (Rgn.base g < (z + 1) * 2 ^ 34) && decide (z * 2 ^ 34 < Rgn.base g + Rgn.size g))
    || (m.zoneKind z == Rgn.ileave g && m.zonePlace z == Rgn.place g)

/-- Whether every stack that a zone of the region uses is in service (R202). -/
def Mod.rgnUp (m : Mod) (g : W256) : Bool :=
  Rgn.hostwin g || (m.stacksOf (Rgn.base g) (Rgn.size g)).all m.partUp

/-- The mode of accesses through captured regions, by address (R204). -/
def finesOf (gs : List W256) (pa : Nat) : Bool :=
  gs.any fun g => !Rgn.hostwin g && Rgn.fine g && decide (Rgn.base g ≤ pa) && decide (pa < Rgn.base g + Rgn.size g)

/-! ### Formats (Table 2.1, Table 5.3) -/

/-- Width in bits of a format's elements. -/
def fmtWidth : Nat → Nat
  | 0 => 4 | 1 => 8 | 2 => 8 | 3 => 16 | 4 => 16 | 5 => 32 | 6 => 4 | 7 => 8 | 8 => 32 | 9 => 16 | 10 => 4 | _ => 0

def E2M1 := 0
def E4M3 := 1
def E5M2 := 2
def BF16 := 3
def FP16 := 4
def FP32 := 5
def INT4 := 6
def INT8 := 7
def INT32 := 8
def G16 := 9
def CODE4 := 10

/-- Codes Table 2.1 does not reserve. -/
def fmtOk (f : Nat) : Bool := decide (f ≤ 10)
def fmtInt (f : Nat) : Bool := f == 6 || f == 7 || f == 8
/-- The format an auxiliary plane of a kind goes with (Table 5.3). -/
def auxAgrees (aux f : Nat) : Bool :=
  match aux with
  | 0 => f != G16 && f != CODE4
  | 1 => f == G16
  | 2 => f == CODE4
  | _ => f == BF16

/-! ### Descriptors (Table 5.2) -/

def Ds.fmt (d : W512) : Nat := bits d.toNat 0 4
def Ds.kind (d : W512) : Nat := bits d.toNat 4 4
def Ds.ab (d : W512) : Bool := bit d.toNat 8
def Ds.cur (d : W512) : Bool := bit d.toNat 9
def Ds.ro (d : W512) : Bool := bit d.toNat 10
def Ds.aux (d : W512) : Nat := bits d.toNat 11 2
def Ds.rank (d : W512) : Nat := bits d.toNat 13 3
def Ds.region (d : W512) : Nat := bits d.toNat 16 10
def Ds.zeroPt (d : W512) : Int := signed 8 (bits d.toNat 32 8)
def Ds.pgroup (d : W512) : Nat := bits d.toNat 40 8
def Ds.scale (d : W512) : Nat := bits d.toNat 64 32
def Ds.planScale (d : W512) : Nat := bits d.toNat 96 32
def Ds.plan (d : W512) : Nat := bits d.toNat 128 64
def Ds.addrA (d : W512) : Nat := bits d.toNat 192 40
def Ds.addrB (d : W512) : Nat := bits d.toNat 256 40
def Ds.auxOff (d : W512) : Nat := bits d.toNat 320 40
def Ds.ext (d : W512) (k : Nat) : Nat := bits d.toNat (384 + 32 * k) 32
/-- Source index and source context of an `ALIAS` (R163). -/
def Ds.aliasIdx (d : W512) : Nat := bits d.toNat 192 17
def Ds.aliasCtx (d : W512) : Nat := bits d.toNat 240 6

/-- A descriptor with bits replaced. -/
def Ds.put (d : W512) (lo len v : Nat) : W512 := BitVec.ofNat 512 (setBits d.toNat lo len v)

/-- Element count (R153). -/
def Ds.count (d : W512) : Nat := Ds.ext d 0 * Ds.ext d 1 * Ds.ext d 2 * Ds.ext d 3
/-- Bytes of a data plane of `n` elements in format `f`. -/
def planeBytes (f n : Nat) : Nat := ceilDiv (n * fmtWidth f) 8
/-- Bytes of the auxiliary plane (Table 5.3). -/
def auxBytes (aux n : Nat) : Nat :=
  match aux with
  | 0 => 0
  | 1 => 4 * ceilDiv n 32768
  | 2 => 32
  | _ => 2 * n
/-- Start of the current buffer, and of the other, within the region (R155). -/
def Ds.curOff (d : W512) : Nat := if Ds.ab d && Ds.cur d then Ds.addrB d else Ds.addrA d
def Ds.altOff (d : W512) : Nat := if Ds.ab d && !Ds.cur d then Ds.addrB d else Ds.addrA d

/-- Whether two byte ranges have a byte in common. -/
def overlap (a la b lb : Nat) : Bool := decide (0 < la) && decide (0 < lb) && decide (a < b + lb) && decide (b < a + la)

/-- Reserved bits of Table 5.2. -/
def Ds.rsvOk (d : W512) : Bool :=
  zeroIn d.toNat [(26, 6), (48, 16), (296, 24), (360, 24)]
  && (Ds.kind d == 2 || zeroIn d.toNat [(232, 24)])

/-- Everything R153-R155 and R163 demand of an entry beside its place in its region. -/
def Ds.formOk (d : W512) : Bool :=
  Ds.rsvOk d && decide (Ds.kind d ≤ 2) &&
  (match Ds.kind d with
   | 0 => true
   | 2 => fmtOk (Ds.fmt d) && Ds.ro d && zeroIn d.toNat [(209, 31), (246, 10)]
   | _ =>
     let f := Ds.fmt d
     let n := Ds.count d
     fmtOk f && decide (1 ≤ Ds.rank d) && decide (Ds.rank d ≤ 4)
     && (List.range 4).all (fun k => decide (k < Ds.rank d) || Ds.ext d k == 1)
     && (f != INT4 || (decide (-8 ≤ Ds.zeroPt d) && decide (Ds.zeroPt d ≤ 7)))
     && auxAgrees (Ds.aux d) f
     && (Ds.ab d || Ds.addrB d == 0)
     && !overlap 0 (planeBytes f n) (Ds.auxOff d) (auxBytes (Ds.aux d) n)
     && (!Ds.ab d ||
          (let db := planeBytes f n
           let xb := auxBytes (Ds.aux d) n
           let a := Ds.addrA d
           let b := Ds.addrB d
           let x := Ds.auxOff d
           !overlap a db b db && !overlap a db (b + x) xb && !overlap (a + x) xb b db && !overlap (a + x) xb (b + x) xb)))

/-- Whether every byte of both planes of every buffer lies in the region (R154). -/
def Ds.inRegion (d : W512) (g : W256) : Bool :=
  let db := planeBytes (Ds.fmt d) (Ds.count d)
  let xb := auxBytes (Ds.aux d) (Ds.count d)
  let fits (o : Nat) : Bool := decide (o + db ≤ Rgn.size g) && (xb == 0 || decide (o + Ds.auxOff d + xb ≤ Rgn.size g))
  fits (Ds.addrA d) && (!Ds.ab d || fits (Ds.addrB d))

/-! ### Plan words (Table 4.2) -/

def Pl.reqFmt (p : Nat) : Nat := bits p 0 4
def Pl.floorFmt (p : Nat) : Nat := bits p 4 4
def Pl.ceilFmt (p : Nat) : Nat := bits p 8 4
def Pl.midFmt (p : Nat) : Nat := bits p 12 4
def Pl.statsEn (p : Nat) : Bool := bit p 16
def Pl.steerEn (p : Nat) : Bool := bit p 17
def Pl.fallbackEn (p : Nat) : Bool := bit p 18
def Pl.nonsat (p : Nat) : Bool := bit p 19
def Pl.outlierCap (p : Nat) : Nat := bits p 20 2
def Pl.headroom (p : Nat) : Nat := bits p 22 3
def Pl.policy (p : Nat) : Nat := bits p 32 8
def Pl.ver (p : Nat) : Nat := bits p 48 16

/-- Place of a format on the ladder of a plan: 1 E2M1, 2 the middle rung, 3 BF16; 0 off the ladder. -/
def rung (mid f : Nat) : Nat := if f = E2M1 then 1 else if f = mid then 2 else if f = BF16 then 3 else 0
/-- The format of a rung. -/
def rungFmt (mid r : Nat) : Nat := if r = 1 then E2M1 else if r = 2 then mid else BF16

/-- A positive normal FP32 pattern. -/
def posNormal (s : Nat) : Bool := decide (s < 2 ^ 31) && decide (1 ≤ bits s 23 8) && decide (bits s 23 8 ≤ 254)

/-- Whether the format fields of a plan word hold codes that Table 2.1 assigns (R28). -/
def planCodesOk (p : Nat) : Bool :=
  fmtOk (Pl.reqFmt p) && fmtOk (Pl.floorFmt p) && fmtOk (Pl.ceilFmt p) && fmtOk (Pl.midFmt p)

/-- Whether a plan word and plan scale may be stored (R100, R28). -/
def planOk (p s : Nat) : Bool :=
  zeroIn p [(25, 7), (40, 8)] && decide (Pl.headroom p ≤ 4) && posNormal s && planCodesOk p
  && (!Pl.steerEn p || Pl.statsEn p) && (!Pl.fallbackEn p || Pl.steerEn p)
  && (!Pl.steerEn p ||
      (let mid := Pl.midFmt p
       (mid == E4M3 || mid == E5M2)
       && rung mid (Pl.reqFmt p) != 0 && rung mid (Pl.floorFmt p) != 0 && rung mid (Pl.ceilFmt p) != 0
       && decide (rung mid (Pl.floorFmt p) ≤ rung mid (Pl.reqFmt p))
       && decide (rung mid (Pl.reqFmt p) ≤ rung mid (Pl.ceilFmt p))))

/-- A plan change: the word and scale stored, `plan_ver` one higher (R102). -/
def Ds.setPlan (d : W512) (p s : Nat) : W512 :=
  Ds.put (Ds.put (Ds.put d 128 48 p) 176 16 (Pl.ver (Ds.plan d) + 1)) 96 32 s

/-! ### The descriptor table -/

/-- Global entry `e`. -/
def Mod.desc (m : Mod) (e : Nat) : W512 := Tab.get 0 m.tdt e
/-- Stores global entry `e` in every copy (R22). -/
def Mod.setDesc (m : Mod) (e : Nat) (d : W512) : Mod := { m with tdt := Tab.set 0 m.tdt e d }
/-- Global entry of index `j` of context `c` (R152). -/
def Mod.entryOf (m : Mod) (c j : Nat) : Nat := m.get F.CTX_QUOTA_tdt_base c + j
/-- Context `c`'s state (R130): 0 `DISABLED`, 1 `ACTIVE`, 2 `DRAINING`. -/
def Mod.ctxState (m : Mod) (c : Nat) : Nat := m.get F.CTX_STAT_state c

/-- Whether context `c`'s quota holds entry `e`. -/
def Mod.owns (m : Mod) (c e : Nat) : Bool :=
  decide (m.get F.CTX_QUOTA_tdt_base c ≤ e)
  && decide (e < m.get F.CTX_QUOTA_tdt_base c + m.get F.CTX_QUOTA_tdt_count c)

/-- The context whose region table checks a PF0 write of entry `e` (R157). -/
def Mod.ownerOf (m : Mod) (e : Nat) : Option Nat :=
  match (List.range 64).find? fun c => m.ctxState c != 0 && m.owns c e with
  | some c => some c
  | none => (List.range 64).find? fun c => m.owns c e

/-- Whether context `c` has a step open: between a begin and its flip or close (R313: states 1 to 4). -/
def Mod.stepOpen (m : Mod) (c : Nat) : Bool := let s := m.get F.STEP_STAT_state c; decide (1 ≤ s) && decide (s ≤ 4)

/-- What makes a write of the entry wait for the step's end (R157): `kind`, `ab`, `region`, addresses, auxiliary plane. -/
def Ds.layout (d : W512) : List Nat :=
  [Ds.kind d, b2n (Ds.ab d), Ds.region d, Ds.addrA d, Ds.addrB d, Ds.aux d, Ds.auxOff d]

/-- Stores `d` at entry `e` under R157: the status, and the module after an accepted write. `own` is the context that
owns the entry. -/
def Mod.descStore (m : Mod) (own : Option Nat) (e : Nat) (d : W512) : Status × Mod :=
  let old := m.desc e
  let g := match own with | some c => m.region c (Ds.region d) | none => 0
  if Ds.kind d ≠ 0 && own.isNone then (ST_BAD_DESC, m)
  else if !Ds.formOk d then (ST_BAD_DESC, m)
  else if Ds.kind d = 1 && !(Rgn.valid g && Ds.inRegion d g) then (ST_BAD_DESC, m)
  else if Ds.kind d = 1 && !planOk (Ds.plan d) (Ds.planScale d) then (ST_BAD_PLAN, m)
  -- no stored descriptor holds a reserved format code (R28), so neither does an alias's plan word
  else if Ds.kind d = 2 && !planCodesOk (Ds.plan d) then (ST_BAD_PLAN, m)
  else if Ds.kind old ≠ 0 && Ds.ab old && Ds.layout old != Ds.layout d
      && (match own with | some c => m.stepOpen c | none => false) then (ST_STEP_OPEN, m)
  else
    let fresh := Ds.kind old = 0
    let changed := bits (Ds.plan old) 0 48 ≠ bits (Ds.plan d) 0 48 || Ds.planScale old ≠ Ds.planScale d
    let ver := if fresh then 0 else if changed then Pl.ver (Ds.plan old) + 1 else Pl.ver (Ds.plan old)
    let d := Ds.put d 176 16 ver
    let d := Ds.put d 9 1 (if fresh then 0 else b2n (Ds.cur old))
    let m := m.setDesc e d
    -- R122: a changed plan voids the tensor's pending plan and its clean run; the counters are in Machine/Steering
    (ST_OK, match own with
      | some c =>
        if !fresh && changed && Ds.kind d = 1 then
          let j := e - m.get F.CTX_QUOTA_tdt_base c
          let x := m.ctx c
          let m := m.setCtx c { x with voided := insertNew j x.voided }
          let a := m.get F.CAL_STAT_CFG_base c * 512 + 512 * j + 0x80
          if Pl.statsEn (Ds.plan d) && j < m.get F.CAL_STAT_CFG_count c then (m.wrInt (a + 4) [0, 0, 0]) else m
        else m
      | none => m)

/-! ### Capture: checks 5 and 6 of R170 -/

/-- The fields an alias takes from its source at issue (R163): the source's descriptor with the alias's `ro`. -/
def Ds.resolve (src : W512) : W512 := Ds.put src 10 1 1

/-- Whether an interlude that context `src` granted to `c` is in progress on every partition of `parts`. -/
def Mod.aliasOpen (m : Mod) (c src parts : Nat) : Bool :=
  ((m.ctx c).iludes.filter fun il => il.train == src && il.live).foldl (fun a il => a ||| il.parts) 0 &&& parts == parts

/-- Check 5.3 for one slot: the captured tensor, or the status. -/
def Mod.capSlot (m : Mod) (c parts slot j : Nat) (use : Use) : Except Status Cap :=
  let e := m.entryOf c j
  let d := m.desc e
  if m.get F.CTX_QUOTA_tdt_count c ≤ j then .error ST_BAD_DESC
  else if Ds.kind d = 0 then .error ST_BAD_DESC
  else if !Ds.formOk d then .error ST_BAD_DESC
  else if Ds.kind d = 2 then
    let sc := Ds.aliasCtx d
    let sj := Ds.aliasIdx d
    let se := m.entryOf sc sj
    let sd := m.desc se
    if use ≠ .rd then .error ST_ACCESS_DENIED
    else if !m.aliasOpen c sc parts then .error ST_ALIAS_CLOSED
    else if m.get F.CTX_QUOTA_tdt_count sc ≤ sj || Ds.kind sd ≠ 1 || !Ds.formOk sd then .error ST_BAD_DESC
    else .ok { slot := slot, entry := se, owner := sc, viaAlias := true, desc := Ds.resolve sd, rgn := m.region sc (Ds.region sd) }
  else if Ds.ro d && use ≠ .rd then .error ST_ACCESS_DENIED
  else if Pl.statsEn (Ds.plan d) && m.get F.CAL_STAT_CFG_count c ≤ j then .error ST_BAD_PLAN
  else if use = .atom && Ds.curOff d % 8 ≠ 0 then .error ST_BAD_DESC
  else .ok { slot := slot, entry := e, owner := c, viaAlias := false, desc := d, rgn := m.region c (Ds.region d) }

/-- Check 5.3 for every slot that holds a tensor, in ascending order. -/
def Mod.capSlots (m : Mod) (c parts : Nat) (r : W1024) : List (Nat × Bool × Use) → Except Status (List Cap)
  | [] => .ok []
  | s :: t =>
    if Rc.desc r s.1 = noDesc then m.capSlots c parts r t
    else match m.capSlot c parts s.1 (Rc.desc r s.1) s.2.2 with
      | .error e => .error e
      | .ok x => match m.capSlots c parts r t with
        | .error e => .error e
        | .ok xs => .ok (x :: xs)

/-- The captured tensor of a slot. -/
def capOf (l : List Cap) (slot : Nat) : Option Cap := l.find? (·.slot == slot)

/-- Whether the operation writes the whole of its destination (R482), for the data-movement opcodes. -/
def wholeWrite (r : W1024) (d : W512) : Bool :=
  match Rc.opcode r with
  | 0x30 => Rc.pf r 2 0 40 == 0 || (Rc.pf r 1 0 40 == 0 && Rc.pf r 2 0 40 == Ds.count d)
  | 0x32 => false
  | 0x40 => false
  | 0x41 => false
  | _ => true

/-- The format an output of the operation is written in (R481, R101, R482, R283, Table 9.5). -/
def outFmt (r : W1024) (caps : List Cap) (x : Cap) : Nat :=
  match Rc.opcode r with
  | 0x52 | 0x53 | 0x54 => match capOf caps 0 with | some s => Ds.fmt s.desc | none => Ds.fmt x.desc
  | 0x55 => Ds.fmt x.desc
  | _ => if wholeWrite r x.desc then Pl.reqFmt (Ds.plan x.desc) else Ds.fmt x.desc

/-- Offsets in the region of the buffers that the operation writes: the current one, or the other for the update
engines (R155, R288). -/
def outOff (r : W1024) (x : Cap) : Nat := if Rc.opcode r = 0x55 then Ds.altOff x.desc else Ds.curOff x.desc

/-- R481's range test of an output. -/
def outFits (r : W1024) (caps : List Cap) (x : Cap) : Bool :=
  let db := planeBytes (outFmt r caps x) (Ds.count x.desc)
  decide (outOff r x + db ≤ Rgn.size x.rgn) && (Ds.aux x.desc == 0 || Ds.auxOff x.desc == 0 || decide (db ≤ Ds.auxOff x.desc))

/-- Whether a matrix record accumulates into its output (R174, R175). -/
def accumOf (r : W1024) : Bool :=
  match Rc.opcode r with
  | 0x10 | 0x11 => (Rc.p r 1).testBit 50
  | 0x12 => (Rc.p r 4).testBit 16
  | _ => false

/-- Whether the operation also reads an output's present contents: an accumulated output, and the state that a
`REDUCE_UPDATE` carries over (R174, R288). -/
def alsoReads (r : W1024) (slot : Nat) : Bool :=
  (accumOf r && slot == 2) || (Rc.opcode r == 0x55 && decide (1 ≤ slot) && decide (slot ≤ 4))

/-- Whether an opcode may name a tensor in a host window: copies (R138). -/
def hostAllowed (r : W1024) : Bool := Rc.opcode r == 0x30

/-- Check 6.1 for one captured tensor. -/
def Mod.rgnCheck (m : Mod) (r : W1024) (caps : List Cap) (x : Cap) (use : Use) : Status :=
  if !Rgn.valid x.rgn then ST_BAD_REGION
  else if !Ds.inRegion x.desc x.rgn then ST_BAD_REGION
  else if Rgn.hostwin x.rgn && !hostAllowed r then ST_BAD_REGION
  else if use = .wr && !outFits r caps x then ST_BAD_REGION
  else if !m.zoneOk x.rgn then ST_BAD_REGION
  else if (use = .rd || alsoReads r x.slot) && !Rgn.rd x.rgn then ST_ACCESS_DENIED
  else if use = .wr && !Rgn.wr x.rgn then ST_ACCESS_DENIED
  else if use = .atom && !Rgn.atom x.rgn then ST_ACCESS_DENIED
  else ST_OK

/-- The use an opcode makes of a slot. -/
def useOf (row : OpRow) (slot : Nat) : Use :=
  match row.slots.find? (·.1 == slot) with | some s => s.2.2 | none => .rd

/-- The operation row of a record. -/
def rowOf (r : W1024) : OpRow := (opRow (Rc.opcode r)).getD ⟨0, [], false, []⟩

/-- The first status other than `ST_OK` in a list. -/
def firstBad : List Status → Status
  | [] => ST_OK
  | s :: t => if s = ST_OK then firstBad t else s

/-- Checks 5 and 6 of R170 for the record `r` of context `c` on the partitions `parts`: the captured tensors, or the
status of the first check that fails. -/
def Mod.captureOp (m : Mod) (c parts : Nat) (r : W1024) : Except Status (List Cap) :=
  match opRow (Rc.opcode r) with
  | none => .error ST_BAD_OPCODE
  | some row =>
    if (bitList 16 parts).any (fun p => !m.partUp p) then .error ST_PART_DOWN
    else if slotMissing row r then .error ST_BAD_DESC
    else match m.capSlots c parts r row.slots with
      | .error e => .error e
      | .ok caps =>
        let st := firstBad (caps.map fun x => m.rgnCheck r caps x (useOf row x.slot))
        if st ≠ ST_OK then .error st
        else if caps.any (fun x => !m.rgnUp x.rgn) then .error ST_PART_DOWN
        else .ok caps

/-- `arr_attr` of a matrix record (Table 3.6). -/
def arrAttr (r : W1024) : Nat :=
  match Rc.opcode r with
  | 0x10 | 0x11 => Rc.pf r 1 32 16
  | 0x12 => Rc.pf r 4 0 16
  | 0x13 => Rc.pf r 3 0 16
  | _ => 0

/-- Bits of `GEO_FEAT` that a matrix record or an interlude calls for (check 7, R25): formats of the array operands, spatial
fusion, the array mode. -/
def featNeed (r : W1024) (caps : List Cap) : List Nat :=
  let o := Rc.opcode r
  if o = 0x64 then [23]
  else if o < 0x10 || 0x13 < o then []
  else
    let a := arrAttr r
    let f := (caps.filter fun x => decide (x.slot < 2)).flatMap fun x =>
      match Ds.fmt x.desc with | 0 => [0] | 1 => [1] | 2 => [2] | 3 => [3] | 6 => [4] | 7 => [5] | _ => []
    f ++ [6 + bits a 2 1] ++ (match bits a 4 3 with | 0 => [] | 1 => [10] | 2 => [8] | _ => [9])

/-- Check 7 of R170. -/
def Mod.featOk (m : Mod) (need : List Nat) : Bool := need.all fun b => (m.regAt 0x40 0x3ffffff).testBit b

/-- Check 6.1 for a region a maintenance operation or host transfer names directly: `len` bytes at `off`. -/
def Mod.rawForm (m : Mod) (c n off len align : Nat) (need : Use) : Except Status W256 :=
  let g := m.region c n
  if !Rgn.valid g || off % align ≠ 0 || Rgn.size g < off + len || !m.zoneOk g then .error ST_BAD_REGION
  else if need = .rd && !Rgn.rd g then .error ST_ACCESS_DENIED
  else if need = .wr && !Rgn.wr g then .error ST_ACCESS_DENIED
  else .ok g

/-- Checks 6 for such a region. -/
def Mod.rawRegion (m : Mod) (c n off len align : Nat) (need : Use) : Except Status W256 :=
  match m.rawForm c n off len align need with
  | .error e => .error e
  | .ok g => if m.rgnUp g then .ok g else .error ST_PART_DOWN

/-! ### Checks 1 to 4 of R170, made at the head of the queue -/

/-- The status of the first of checks 2 to 4 that fails (check 1 is in the fetch). -/
def Mod.headCheck (m : Mod) (c : Nat) (f : Fetched) : Status :=
  if f.early ≠ ST_OK then f.early
  else match opRow (Rc.opcode f.rcd) with
    | none => ST_BAD_OPCODE
    | some row =>
      if !recordForm row f.rcd then ST_BAD_RECORD
      else
        let n := m.get F.CTX_FLG_RANGE_flag_count c
        if (List.range (Rc.nWait f.rcd)).any (fun w => n ≤ Rc.waitFlag f.rcd w)
          || (List.range (Rc.nSig f.rcd)).any (fun s => n ≤ Rc.sigFlag f.rcd s) then ST_BAD_FLAG
        else ST_OK

end Sys2Proof.Machine
end

