-- ==== Sys2Proof/Machine/Flags.lean ====
section
/-! DEFINITION. Counting flags (R147-R151, R362): adds, sets, waits, and what an update of a flag ends (R162). -/

namespace Sys2Proof.Machine

/-- The value of module flag `f`. -/
def Mod.flag (m : Mod) (f : Nat) : W64 := Tab.get 0 m.flags f

/-- Whether module flag `f` is poisoned (R362). -/
def Mod.flagBad (m : Mod) (f : Nat) : Bool := Tab.get false m.flagPois f

/-- What a host read of a flag returns: all ones while it is poisoned (R362). -/
def Mod.flagRead (m : Mod) (f : Nat) : W64 := if m.flagBad f then BitVec.allOnes 64 else m.flag f

/-- An interlude whose end flag has reached its target ends (R162 step 3). -/
def Mod.interludeEnd (m : Mod) (f : Nat) : Mod :=
  let due (il : Interlude) : Bool := il.live && il.flag == f && !m.flagBad f && decide (il.target ≤ m.flag f)
  m.ctxs.foldl (fun m e =>
    if e.2.iludes.any due then
      m.setCtx e.1 { m.ctx e.1 with iludes := (m.ctx e.1).iludes.map fun il => if due il then { il with ended := true } else il }
    else m) m

/-- Sets a flag (R148); a set clears poison (R362). -/
def Mod.flagSet (m : Mod) (f : Nat) (v : W64) : Mod :=
  ({ m with flags := Tab.set 0 m.flags f v, flagPois := Tab.set false m.flagPois f false }).interludeEnd f

/-- Adds to a flag modulo 2^64; a wrap is recorded (R148). -/
def Mod.flagAdd (m : Mod) (f : Nat) (v : W64) : Mod :=
  let old := m.flag f
  let m := { m with flags := Tab.set 0 m.flags f (old + v) }
  let m := if 2 ^ 64 ≤ old.toNat + v.toNat then
      m.log { st := ST_FLAG_WRAP, cls := .event, block := Blk.FLG, d0 := f, d1 := (old + v).toNat }
    else m
  m.interludeEnd f

/-- Module flag of index `x` of context `c` (R147). -/
def Mod.ctxFlag (m : Mod) (c x : Nat) : Nat := m.get F.CTX_FLG_RANGE_flag_base c + x

/-- Whether index `x` lies in context `c`'s range. -/
def Mod.flagIn (m : Mod) (c x : Nat) : Bool := decide (x < m.get F.CTX_FLG_RANGE_flag_count c)

/-- An engine's add to a context-relative flag (R148); an index outside the range is refused where it is used (R147). -/
def Mod.ctxFlagAdd (m : Mod) (c x : Nat) (v : W64) (block : Nat) : Mod :=
  if m.flagIn c x then m.flagAdd (m.ctxFlag c x) v else m.refuseCtx ST_BAD_FLAG block c

/-- Whether wait `w` of a record holds (R149, R169, R362): target 0 always does. -/
def Mod.waitHolds (m : Mod) (c : Nat) (r : W1024) (w : Nat) : Bool :=
  Rc.waitTgt r w == 0 ||
  (let f := m.ctxFlag c (Rc.waitFlag r w)
   !m.flagBad f && decide (Rc.waitTgt r w ≤ (m.flag f).toNat))

/-- The first wait of a record that does not hold. -/
def Mod.firstWait (m : Mod) (c : Nat) (r : W1024) : Option Nat :=
  (List.range (Rc.nWait r)).find? fun w => !m.waitHolds c r w

/-- Performs signal slot `s` of a record (R169). -/
def Mod.signal (m : Mod) (c : Nat) (r : W1024) (s : Nat) : Mod :=
  let f := m.ctxFlag c (Rc.sigFlag r s)
  let v := BitVec.ofNat 64 (Rc.sigVal r s)
  if (Rc.sigSet r).testBit s then m.flagSet f v else m.flagAdd f v

/-- Performs the signals of a record in ascending slot order, those whose bit of `mask` is set (R169, R192). -/
def Mod.signals (m : Mod) (c : Nat) (r : W1024) (mask : Nat) : Mod :=
  m.each ((List.range (Rc.nSig r)).filter fun s => mask.testBit s) fun m s => m.signal c r s

end Sys2Proof.Machine
end

