-- ==== Sys2Proof/Machine/Link.lean ====
section
/-! DEFINITION. The Vufen fabric's own operations: addresses and routes (R253-R262), flits, credits and retry
(R243-R248), packets (R249-R250) and floods (R265). -/

namespace Sys2Proof.Machine

/-! ### Addresses and routes -/

/-- Coordinate of an address on axis `a` (R253). -/
def coord (addr a : Nat) : Nat := bits addr (6 * a) 6
/-- An address with another coordinate on axis `a`. -/
def setCoord (addr a x : Nat) : Nat := setBits addr (6 * a) 6 x
/-- Extent of axis `a` (`RTE_SHAPE`). -/
def Mod.extent (m : Mod) (a : Nat) : Nat :=
  match a with
  | 0 => m.get F.RTE_SHAPE_ext_x
  | 1 => m.get F.RTE_SHAPE_ext_y
  | 2 => m.get F.RTE_SHAPE_ext_z
  | _ => m.get F.RTE_SHAPE_ext_w
/-- The axis routed `k`-th. -/
def Mod.axisAt (m : Mod) (k : Nat) : Nat := bits (m.get F.RTE_SHAPE_order) (2 * k) 2
/-- The module's physical and logical addresses. -/
def Mod.phys (m : Mod) : Nat := m.get F.RTE_SELF_phys
def Mod.logical (m : Mod) : Nat := m.get F.RTE_SELF_logical

/-- Fields of a remap entry (`RTE_REMAP`). -/
def Rm.logical (e : W64) : Nat := bits e.toNat 0 24
def Rm.physical (e : W64) : Nat := bits e.toNat 24 24
def Rm.valid (e : W64) : Bool := bit e.toNat 48
/-- Fields of a detour entry (`RTE_DETOUR`). -/
def Dt.addr (e : W64) : Nat := bits e.toNat 0 24
def Dt.port (e : W64) : Nat := bits e.toNat 24 3
def Dt.module (e : W64) : Bool := bit e.toNat 27
def Dt.valid (e : W64) : Bool := bit e.toNat 28

/-- The active physical address of a logical one (R257). -/
def Mod.remap (m : Mod) (x : Nat) : Nat :=
  match m.fab.remap.find? (fun e => Rm.valid e.2 && Rm.logical e.2 == x) with
  | some e => Rm.physical e.2
  | none => x

/-- Whether port `n` may carry routed traffic (R237). -/
def Mod.usable (m : Mod) (n : Nat) : Bool := let s := m.get F.LNK_STAT_state n; s == 2 || s == 3
/-- Whether port `n` carries VC 0 (R237, R265). -/
def Mod.carries0 (m : Mod) (n : Nat) : Bool := m.usable n || m.get F.LNK_STAT_state n == 4

/-- The plus end and even port of the link at port `n` of the module at `addr` (R258). -/
def Mod.linkOf (m : Mod) (addr n : Nat) : Nat × Nat :=
  if n % 2 = 0 then (addr, n)
  else
    let a := n / 2
    let e := m.extent a
    (setCoord addr a ((coord addr a + e - 1) % e), n - 1)

/-- Links and modules that may not be crossed: active detour entries, and the source's own unusable ports (R255). -/
def Mod.badLinks (m : Mod) : List (Nat × Nat) :=
  ((m.fab.detour.filter fun e => Dt.valid e.2 && !Dt.module e.2).map fun e => (Dt.addr e.2, Dt.port e.2))
  ++ ((List.range 8).filter fun n => !m.usable n).map fun n => m.linkOf m.phys n
def Mod.badModules (m : Mod) : List Nat :=
  (m.fab.detour.filter fun e => Dt.valid e.2 && Dt.module e.2).map fun e => Dt.addr e.2

/-- Whether a segment of `h` hops on axis `a` from `cur` crosses a detour entry (R259). -/
def Mod.crosses (m : Mod) (cur a h : Nat) (minus : Bool) : Bool :=
  let e := m.extent a
  let x := coord cur a
  (List.range h).any fun j =>
    let y := if minus then (x + j * (e - 1) + e - 1) % e else (x + j) % e
    let z := if minus then y else (x + j + 1) % e
    m.badLinks.contains (setCoord cur a y, 2 * a) || m.badModules.contains (setCoord cur a z)

/-- One byte of `route` (Table 8.6) for axis `a` from `cur` to coordinate `t`; none where no way is open (R255). -/
def Mod.segment (m : Mod) (cur a t : Nat) : Option Nat :=
  let e := m.extent a
  let dp := (t + e - coord cur a % e) % e
  let dm := (e - dp) % e
  if dp = 0 then some 0
  else
    let minus := !decide (dp ≤ dm)
    let h := if minus then dm else dp
    if !m.crosses cur a h minus then some (h + 64 * b2n minus)
    else if !m.crosses cur a (e - h) (!minus) then some (e - h + 64 * b2n (!minus))
    else none

/-- The route word from `cur` over the axes `ks` of the order, to `p` (R255). -/
def Mod.routeFrom (m : Mod) (p : Nat) : Nat → List Nat → Option Nat
  | _, [] => some 0
  | cur, k :: ks =>
    let a := m.axisAt k
    match m.segment cur a (coord p a) with
    | none => none
    | some b => (m.routeFrom p (setCoord cur a (coord p a)) ks).map fun r => b * 2 ^ (8 * k) + r

/-- The route to a logical address (R255). -/
def Mod.route (m : Mod) (dst : Nat) : Option Nat := m.routeFrom (m.remap dst) m.phys [0, 1, 2, 3]

/-- The logical address of the module whose physical address is `p`, under a remap table (R262). -/
def logicalIn (t : Tab W64) (p : Nat) : Option Nat :=
  match t.find? fun e => Rm.valid e.2 && Rm.physical e.2 == p with
  | some e => some (Rm.logical e.2)
  | none => if t.any fun e => Rm.valid e.2 && Rm.logical e.2 == p then none else some p

/-- Sets the module's own logical address (R262). -/
def Mod.setLogical (m : Mod) : Mod :=
  match logicalIn m.fab.remap m.phys with
  | some l => (m.set F.RTE_SELF_logical 0 l).set F.RTE_SELF_logical_valid 0 1
  | none => m.set F.RTE_SELF_logical_valid 0 0

/-- Discovery is complete once the module has an address and the peer of every port in service agrees (R254 step 7). -/
def Mod.discCheck (m : Mod) : Mod :=
  if m.fab.haveAddr && m.get F.RTE_SELF_disc_state != 2
      && ((List.range 8).filter m.usable).all (fun n => m.fab.peers.contains (n, m.phys)) then
    (m.set F.RTE_SELF_disc_state 0 2).setLogical
  else m

/-- The first routed axis with hops left: its place in the order. -/
def routeHead (r : Nat) : Option Nat := (List.range 4).find? fun k => bits r (8 * k) 6 != 0

/-- Port that a packet with route `r` leaves through, the route with one hop less, and whether the link is the wrap link
of its axis (R249, R256). -/
def Mod.hop (m : Mod) (r : Nat) : Option (Nat × Nat × Bool) :=
  (routeHead r).map fun k =>
    let a := m.axisAt k
    let h := bits r (8 * k) 6
    let minus := bit r (8 * k + 6)
    let x := coord m.phys a
    let h' := if h = 1 then setBits r (8 * k) 8 0 else setBits r (8 * k) 6 (h - 1)
    (2 * a + b2n minus, h', if minus then x == 0 else x + 1 == m.extent a)

/-! ### Flits (Table 8.4) -/

/-- CRC-32 of IEEE 802.3, reflected form, over a list of bytes (R243). -/
def crcBit (c : Nat) : Nat := if c % 2 = 1 then (c / 2) ^^^ 0xEDB88320 else c / 2
def crcByte (c : Nat) (b : Byte) : Nat := (List.range 8).foldl (fun c _ => crcBit c) (c ^^^ b.toNat)
def crc32 (l : List Byte) : Nat := l.foldl crcByte 0xFFFFFFFF ^^^ 0xFFFFFFFF

/-- The first eight bytes of a flit, as a number. -/
def Ft.head (l : List Byte) : Nat := leNat (l.take 8)
def Ft.ftype (l : List Byte) : Nat := bits (Ft.head l) 0 2
def Ft.vc (l : List Byte) : Nat := bits (Ft.head l) 2 3
def Ft.cls (l : List Byte) : Bool := bit (Ft.head l) 5
def Ft.sop (l : List Byte) : Bool := bit (Ft.head l) 6
def Ft.eop (l : List Byte) : Bool := bit (Ft.head l) 7
def Ft.seq (l : List Byte) : Nat := bits (Ft.head l) 8 16
def Ft.ack (l : List Byte) : Nat := bits (Ft.head l) 24 16
def Ft.crVc (l : List Byte) : Nat := bits (Ft.head l) 40 3
def Ft.crCls (l : List Byte) : Bool := bit (Ft.head l) 43
def Ft.crCnt (l : List Byte) : Nat := bits (Ft.head l) 44 8
def Ft.probe (l : List Byte) : Bool := bit (Ft.head l) 52
/-- Whether a flit's CRC is good. -/
def Ft.good (l : List Byte) : Bool := l.length == 256 && crc32 (l.take 252) == leNat (l.drop 252)

/-- A flit: its first word, 244 payload bytes, its CRC. -/
def mkFlit (hd : Nat) (payload : List Byte) : List Byte :=
  let body := leBytes 8 hd ++ slice payload 0 244
  body ++ leBytes 4 (crc32 body)

/-- Receive buffer of a VC per dateline class, in flits (Table 8.5). -/
def vcBuffer : Nat → Nat
  | 0 => 64 | 1 => 1600 | 2 => 512 | 3 => 512 | 4 => 1152 | 5 => 256 | _ => 0

/-- Key of a VC and class. -/
def vcKey (vc : Nat) (cls : Bool) : Nat := vc * 2 + b2n cls

/-- Full credits: the receiver's buffer sizes (R247). -/
def fullCredits : Tab Nat := (List.range 12).map fun k => (k, vcBuffer (k / 2))

/-- Credits of a VC and class at port `n`. -/
def Port.credit (p : Port) (vc : Nat) (cls : Bool) : Nat := Tab.get 0 p.credits (vcKey vc cls)

/-! ### Transmission (R244, R247, R248) -/

/-- Weight of a VC in `LNK_VC_WEIGHT`. -/
def Mod.vcWeight (m : Mod) (vc : Nat) : Nat := bits (m.regAt 0x2000400 F.LNK_VC_WEIGHT_w1.reset) (8 * vc) 8

/-- The flit of VC `vc` that is next to go, if it has credit. A port being fenced begins no packet on VCs 1 to 7 (R265). -/
def Port.ready (p : Port) (vc : Nat) : Option TxFlit :=
  match p.waiting.find? (·.vc == vc) with
  | some f => if p.credit f.vc f.cls = 0 || (p.fencing && vc != 0 && f.idx == 0) then none else some f
  | none => none

/-- The VC served next and the round-robin state after it (R248). -/
def Mod.pickVc (m : Mod) (p : Port) : Option (Nat × Nat × Nat) :=
  if (p.ready 0).isSome then some (0, p.wrrVc, p.wrrLeft)
  else if p.wrrLeft ≠ 0 && (p.ready p.wrrVc).isSome then some (p.wrrVc, p.wrrVc, p.wrrLeft - 1)
  else
    let order := (List.range 5).map fun j => (p.wrrVc + j) % 5 + 1
    match order.find? (fun v => (p.ready v).isSome && m.vcWeight v != 0) with
    | some v => some (v, v, m.vcWeight v - 1)
    | none => match order.find? (fun v => (p.ready v).isSome) with
      | some v => some (v, v, 0)
      | none => none

/-- Removes the first flit of a VC from the waiting list. -/
def dropVc (vc : Nat) : List TxFlit → List TxFlit
  | [] => []
  | f :: t => if f.vc = vc then t else f :: dropVc vc t

/-- Payload bytes in flit `j` of a packet (R250). -/
def flitBytes (pkt : Packet) (j : Nat) : Nat :=
  let n := pkt.hdr.len.toNat + 1
  if j = 0 then min n 212 else min (n - 212 - 244 * (j - 1)) 244

/-- Flits of a packet (R250): the header's 32 bytes and the payload, 244 to a flit. -/
def flitCount (pkt : Packet) : Nat := ceilDiv (32 + pkt.hdr.len.toNat + 1) 244

/-- The bytes of a payload: as the spec lays them out, or those of `Config.ctlBytes` where it gives no layout (log entry
14). A packet carries 1 to 65,536 of them. -/
def payloadBytes (pl : Payload) : List Byte :=
  match pl with
  | .bytes l => l
  | .watch _ _ _ _ _ l => l
  | _ => (Config.ctlBytes pl).1 :: (Config.ctlBytes pl).2.take 65535

/-- The packet header byte for byte (Table 8.6). -/
def hdrBytes (h : PktHdr) : List Byte :=
  leBytes 8 (h.dst.toNat + h.src.toNat * 2 ^ 24 + h.ctx.toNat * 2 ^ 48 + b2n h.ctxValid * 2 ^ 54)
  ++ leBytes 8 (h.gen.toNat + h.epoch.toNat * 2 ^ 16 + h.ptype.toNat * 2 ^ 32 + h.len.toNat * 2 ^ 40)
  ++ leBytes 8 (h.route.toNat + h.bseq.toNat * 2 ^ 32) ++ leBytes 8 h.opq.toNat

/-- The 244 payload bytes of flit `j` of a packet, the last padded with zeros (R250). -/
def flitBody (pkt : Packet) (j : Nat) : List Byte := slice (hdrBytes pkt.hdr ++ payloadBytes pkt.payload) (244 * j) 244

/-- First word of a flit (Table 8.4): `low` holds its bits below `ack`; then the acknowledgement, and the credits owed for one
VC and class (R247). -/
def Mod.flitHead (m : Mod) (n low ack : Nat) : Nat × Mod :=
  let p := m.port n
  match p.rxReturn with
  | [] => (low + ack * 2 ^ 24, m)
  | (k, c) :: _ =>
    let c' := min c 255
    (low + ack * 2 ^ 24 + (k / 2) * 2 ^ 40 + (k % 2) * 2 ^ 43 + c' * 2 ^ 44,
      m.setPort n { p with rxReturn := Tab.set 0 p.rxReturn k (c - c') })

/-- The last sequence number that port `n` received in order. -/
def Port.acked (p : Port) : Nat := (p.rxNext + 65535) % 65536

/-- Puts a `DATA` flit on port `n` byte for byte, with what it acknowledges and returns (R243, R247). -/
def Mod.sendData (m : Mod) (n : Nat) (f : TxFlit) : Mod :=
  let (h, m) := m.flitHead n (f.vc * 4 + b2n f.cls * 32 + b2n (f.idx == 0) * 64 + b2n (f.idx + 1 == flitCount f.pkt) * 128
    + f.seq * 256) (m.port n).acked
  m.emit (.dataFlit n (mkFlit h (flitBody f.pkt f.idx)))

/-- Counts a flit sent on port `n`, VC `vc`, with its payload bytes (Table 13.3). -/
def Mod.flitSent (m : Mod) (n vc bytes : Nat) : Mod :=
  (m.count F.CNT_MOD_count (288 + 32 * n + 4 * vc) 1).count F.CNT_MOD_count (288 + 32 * n + 4 * vc + 3) bytes

/-- Sends waiting flits of port `n` while one has credit and the replay buffer has room; `k` bounds their number. -/
def Mod.pump (m : Mod) (n : Nat) : Nat → Mod
  | 0 => m
  | k + 1 =>
    let p := m.port n
    if 4095 ≤ p.replay.length || !m.carries0 n then m
    else match m.pickVc p with
      | none => m
      | some (vc, wv, wl) => match p.ready vc with
        | none => m
        | some f =>
          let f := { f with seq := p.txSeq }
          let key := vcKey f.vc f.cls
          let m := m.setPort n { p with
            waiting := dropVc vc p.waiting, replay := p.replay ++ [f], txSeq := (p.txSeq + 1) % 65536,
            credits := Tab.set 0 p.credits key (Tab.get 0 p.credits key - 1), wrrVc := wv, wrrLeft := wl }
          ((m.flitSent n f.vc (flitBytes f.pkt f.idx)).sendData n f).pump n k

/-- Sends what can go from port `n`. -/
def Mod.drain (m : Mod) (n : Nat) : Mod := m.pump n (m.port n).waiting.length

/-- Queues a packet on a VC and class of port `n`. -/
def Mod.enqueue (m : Mod) (n vc : Nat) (cls : Bool) (pkt : Packet) : Mod :=
  let p := m.port n
  let fs := (List.range (flitCount pkt)).map fun j => { vc := vc, cls := cls, pkt := pkt, idx := j : TxFlit }
  (m.setPort n { p with waiting := p.waiting ++ fs }).drain n

/-- Whether port `n` lets a new packet on `vc` in: a port being fenced takes none on VCs 1 to 7 (R265). -/
def Mod.lets (m : Mod) (n vc : Nat) : Bool := vc == 0 || !(m.port n).fencing

/-- Whether port `n` takes a packet on `vc` to forward: routing uses a port in `ACTIVE` or `DEGRADED` only (R237, R256). -/
def Mod.accepts (m : Mod) (n vc : Nat) : Bool := m.usable n && m.lets n vc

/-- The header of a packet from this module for context `c` (R250, R266). -/
def Mod.header (m : Mod) (c : Option Nat) (ptype dst : Nat) (payload : Payload) (bseq opq : Nat) : PktHdr :=
  { dst := BitVec.ofNat 24 (m.remap dst), src := BitVec.ofNat 24 m.logical,
    ctx := BitVec.ofNat 6 (c.getD 0), ctxValid := c.isSome,
    gen := BitVec.ofNat 16 (match c with | some c => m.get F.CTX_STAT_gen c | none => 0),
    epoch := BitVec.ofNat 16 (m.get F.RTE_EPOCH_epoch), ptype := BitVec.ofNat 8 ptype,
    len := BitVec.ofNat 17 ((payloadBytes payload).length - 1),
    route := 0, bseq := BitVec.ofNat 16 bseq, opq := BitVec.ofNat 64 opq }

/-- Sends a packet that has its route: through the port of its first hop, or to this module itself when it has none
(R255, R249). The port taken is usable, since `route` counts unusable own ports as detours; one that is being fenced discards
what comes for VCs 1 to 7, as it will discard all that it has not begun (R264, R265). -/
def Mod.sendRouted (m : Mod) (vc : Nat) (pkt : Packet) : Mod :=
  match m.hop pkt.hdr.route.toNat with
  | none => { m with fab := { m.fab with loop := m.fab.loop ++ [pkt] } }
  | some (n, r, wrap) =>
    if m.lets n vc then m.enqueue n vc wrap { pkt with hdr := { pkt.hdr with route := BitVec.ofNat 32 r } }
    else m.bump F.LNK_DROP_down n 1

/-- Forms and sends a packet to a logical address; false where no route is open (`ST_NO_ROUTE`, R255), which is counted. -/
def Mod.send (m : Mod) (c : Option Nat) (vc ptype dst : Nat) (payload : Payload) (bseq opq : Nat := 0) : Bool × Mod :=
  match m.route dst with
  | none => (false, { m with fab := { m.fab with noRoute := m.fab.noRoute + 1 } })
  | some r => (true, m.sendRouted vc
      { hdr := { m.header c ptype dst payload bseq opq with route := BitVec.ofNat 32 r }, payload := payload })

/-- As `send`, where no rule gives the engine anything to do on a failure (log entry 77). -/
def Mod.sendTo (m : Mod) (c : Option Nat) (vc ptype dst : Nat) (payload : Payload) (bseq opq : Nat := 0) : Mod :=
  (m.send c vc ptype dst payload bseq opq).2

/-- Replaces automatic detour entry `j` (224-255), which `RTE_DETOUR[j]` shows. -/
def Mod.setAuto (m : Mod) (j : Nat) (v : W64) : Mod :=
  let m := { m with fab := { m.fab with detour := Tab.set 0 m.fab.detour j v } }
  let m := m.setRegAt (R.RTE_DETOUR.base + 8 * j) 0 v.toNat
  m.set F.RTE_EPOCH_auto_used 0 ((m.fab.detour.filter fun e => decide (224 ≤ e.1)).length)

/-! ### Floods (R265) -/

/-- Passes a flooded packet on through every usable or fenced port but `skip`. -/
def Mod.floodOut (m : Mod) (pkt : Packet) (skip : Nat) : Mod :=
  m.each ((List.range 8).filter fun n => n != skip && m.carries0 n) fun m n => m.enqueue n 0 false pkt

/-- Whether the pair (`src`, `bseq`) has been seen, and the module that remembers it (the last 512 pairs). -/
def Mod.seenPair (m : Mod) (src bseq : Nat) : Bool × Mod :=
  if m.fab.seen.contains (src, bseq) then (true, m)
  else (false, { m with fab := { m.fab with seen := ((src, bseq) :: m.fab.seen).take 512 } })

/-- Originates a flood; each origin numbers its floods consecutively. -/
def Mod.flood (m : Mod) (ptype : Nat) (payload : Payload) : Mod :=
  let b := m.fab.bseq
  let hdr := { m.header none ptype 0xFFFFFF payload b 0 with
    dst := 0xFFFFFF, src := BitVec.ofNat 24 m.phys }
  let m := { m with fab := { m.fab with bseq := (b + 1) % 65536 } }
  (m.seenPair m.phys b).2.floodOut { hdr := hdr, payload := payload } 8

/-! ### Receipt of flits (R244, R247) -/

/-- Takes the acknowledgement and the credits that a good flit carries. -/
def Mod.takeReturns (m : Mod) (n : Nat) (l : List Byte) : Mod :=
  let p := m.port n
  let a := Ft.ack l
  -- flits up to and including `ack` leave the replay buffer, when it names one of them
  let rp := if p.replay.any (·.seq == a) then (p.replay.dropWhile (·.seq != a)).drop 1 else p.replay
  let key := vcKey (Ft.crVc l) (Ft.crCls l)
  let cr := min (Tab.get 0 p.credits key + Ft.crCnt l) (vcBuffer (Ft.crVc l))
  (m.setPort n { p with replay := rp, credits := Tab.set 0 p.credits key cr }).drain n

/-- A flit with a bad CRC is counted (R244, R245). -/
def Mod.crcError (m : Mod) (n : Nat) : Mod := m.bump F.LNK_ERR_crc_err n 1

/-- Sends a NAK naming the sequence number expected next. -/
def Mod.sendNak (m : Mod) (n : Nat) : Mod :=
  let (h, m) := m.flitHead n 3 (m.port n).rxNext
  m.emit (.ctlFlit n (mkFlit h []))

/-- Sends an IDLE flit, which returns credits and acknowledges. -/
def Mod.sendIdle (m : Mod) (n : Nat) : Mod :=
  let (h, m) := m.flitHead n 1 (m.port n).acked
  m.emit (.ctlFlit n (mkFlit h []))

/-- A packet leaves the receive buffer: its flits' credits are owed to the sender and returned in an IDLE flit (R247). -/
def Mod.releaseRx (m : Mod) (n vc : Nat) (cls : Bool) (flits : Nat) : Mod :=
  let p := m.port n
  let k := vcKey vc cls
  let held := Tab.get 0 p.rxHeld k
  let f := min flits held
  if f = 0 then m
  else (m.setPort n { p with rxHeld := Tab.set 0 p.rxHeld k (held - f), rxReturn := Tab.set 0 p.rxReturn k (Tab.get 0 p.rxReturn k + f) }).sendIdle n

end Sys2Proof.Machine
end

