-- ==== Sys2Proof/Machine/Trace.lean ====
section
/-! DEFINITION. Trace records (R402-R405), module counters (R394, R398) and PCIe writes by the module (R227, R229), which
every other engine uses. -/

namespace Sys2Proof.Machine

/-! ### Counters -/

/-- Adds `n` to word `w` of `CNT_MOD` (R394: wraps). -/
def Mod.cnt (m : Mod) (w n : Nat) : Mod := m.count F.CNT_MOD_count w n

/-- Words of `CNT_MOD` that count cycles, times and bytes moved by a schedule, and the TLP payload, of which a command does not say
by how many bytes it came (log entry 15); what goes through the slices is counted
as the accesses are modelled (log entry 78). -/
def cntTimed (w : Nat) : Bool :=
  if w < 128 then w % 8 == 0 || w % 8 == 2 else if w < 256 then w % 8 == 3 else if w < 288 then true
  else if w < 544 then (w - 288) % 4 == 2 else decide (w < 618)

/-- What a counter reads as. -/
def Mod.cntRead (m : Mod) (w : Nat) : Nat :=
  if cntTimed w then Config.cycleCount w m.time % 2 ^ 64 else m.get F.CNT_MOD_count w

/-! ### PCIe requests of the module -/

/-- Requester of context `c`'s host accesses (R227): 0 PF0, v + 1 VF v. -/
def Mod.requester (m : Mod) (c : Nat) : Nat :=
  if m.on F.CTX_CFG_vf_bound c then m.get F.CTX_CFG_vf c + 1 else 0

/-- Whether a function's requests can go out (R229). -/
def Mod.hostUp (m : Mod) (fn : Nat) : Bool := m.pcie.link && !Tab.get false m.pcie.busMasterOff fn

/-- Splits `n` bytes from `addr` so that no part crosses a 4 KiB boundary or exceeds `most` (R227). -/
def hostParts (most : Nat) : Nat → Nat → Nat → List (Nat × Nat)
  | 0, _, _ => []
  | k + 1, addr, n =>
    if n = 0 then []
    else
      let c := min n (min (max most 1) (4096 - addr % 4096))
      (addr, c) :: hostParts most k (addr + c) (n - c)

/-- Writes bytes to host memory in parts that respect Max_Payload_Size (R227). -/
def Mod.hostWrite (m : Mod) (fn addr : Nat) (l : List Byte) : Mod :=
  let m := (hostParts m.pcie.maxPayload l.length addr l.length).foldl
    (fun m p => m.emit (.hostWrite fn p.1 (slice l (p.1 - addr) p.2))) m
  m.cnt 617 l.length

/-! ### Trace -/

/-- The buffer of a source (R402). -/
def traceBuf (src : Nat) : Nat := if src < 16 then src else 16

/-- Records that buffer `b` holds. -/
def Mod.traceCap (m : Mod) (b : Nat) : Nat := 2 ^ (m.get F.TRC_BUF_size_log2 b - 5)

/-- The 32 bytes of Table 13.5. -/
def traceWord (stamp seq type src ctx queue layer payload : Nat) : List Byte :=
  leBytes 32 (stamp % 2 ^ 64 + (seq % 2 ^ 16) * 2 ^ 64 + (type % 256) * 2 ^ 80 + (src % 256) * 2 ^ 88 + (ctx % 256) * 2 ^ 96
    + (queue % 16) * 2 ^ 104 + (layer % 2 ^ 16) * 2 ^ 112 + (payload % 2 ^ 128) * 2 ^ 128)

/-- `ST_TRACE_OVERRUN` once for each episode of loss (R404). -/
def Mod.traceLoss (m : Mod) (b : Nat) : Mod :=
  let m := m.bump F.TRC_PTR_lost b 1
  if Tab.get false m.traceEp b then m
  else ({ m with traceEp := Tab.set false m.traceEp b true }).log { st := ST_TRACE_OVERRUN, cls := .event, block := Blk.TRC, d0 := b }

/-- Records of buffer `b` not yet streamed. -/
def Mod.traceUnsent (m : Mod) (b : Nat) : Nat :=
  let n := m.traceCap b
  (m.get F.TRC_PTR_head b + n - Tab.get 0 m.traceSent b % n) % n

/-- Sends one block of 4 KiB of buffer `b` to the host ring: `k` records, then zero records (R405). -/
def Mod.traceBlock (m : Mod) (b k : Nat) : Mod :=
  let n := m.traceCap b
  let hn := 2 ^ m.get F.TRC_HOST_PTR_size_log2 b
  let h := m.get F.TRC_HOST_PTR_head b
  if (h + 1) % hn = m.get F.TRC_HOST_PTR_tail b % hn then m
  else if !m.hostUp 0 then
    (m.set F.TRC_BUF_stream_en b 0).log { st := ST_HOST_ABORT, cls := .error, block := Blk.TRC, d1 := m.get F.TRC_HOST_ADDR_addr b }
  else
    let s := Tab.get 0 m.traceSent b
    let base := m.get F.TRC_BUF_base b * 2 ^ 20
    let (data, m) := (List.range k).foldl (fun (a : List Byte × Mod) j =>
      let (l, m) := a.2.rdInt (base + 32 * ((s + j) % n)) 32
      (a.1 ++ l, m)) ([], m)
    let m := m.hostWrite 0 (m.get F.TRC_HOST_ADDR_addr b / 4096 * 4096 + 4096 * h) (slice data 0 4096)
    { (m.set F.TRC_HOST_PTR_head b ((h + 1) % hn)) with traceSent := Tab.set 0 m.traceSent b ((s + k) % n) }

/-- Sends full blocks while there are some; `k` bounds their number. -/
def Mod.traceStream (m : Mod) (b : Nat) : Nat → Mod
  | 0 => m
  | k + 1 => if m.on F.TRC_BUF_stream_en b && 128 ≤ m.traceUnsent b then (m.traceBlock b 128).traceStream b k else m

/-- Puts one record into buffer `b`; false when it found the buffer full in `STOP` mode (R404). -/
def Mod.tracePut (m : Mod) (b : Nat) (l : List Byte) : Bool × Mod :=
  let n := m.traceCap b
  let h := m.get F.TRC_PTR_head b
  let full := decide ((h + 1) % n = m.get F.TRC_PTR_tail b % n)
  if full && m.on F.TRC_BUF_mode b then (false, m.traceLoss b)
  else
    let m := m.wrInt (m.get F.TRC_BUF_base b * 2 ^ 20 + 32 * h) l
    let m := m.set F.TRC_PTR_head b ((h + 1) % n)
    let m := if full then
        let t := m.get F.TRC_PTR_tail b
        let m := if Tab.get 0 m.traceSent b = t then { m with traceSent := Tab.set 0 m.traceSent b ((t + 1) % n) } else m
        (m.set F.TRC_PTR_tail b ((t + 1) % n)).traceLoss b
      else { m with traceEp := Tab.set false m.traceEp b false }
    (true, m.traceStream b (m.traceUnsent b / 128))

/-- The `LOST` record of source `src`, if it has lost records and its buffer has space (R404). -/
def Mod.traceLost (m : Mod) (src : Nat) : Mod :=
  let s := Tab.get ({} : TraceSrc) m.traceSrc src
  if s.lost = 0 then m
  else
    let (ok, m) := m.tracePut (traceBuf src) (traceWord m.time s.seq 0x0D src 0xFF 0 0xFFFF s.lost)
    if ok then { m with traceSrc := Tab.set {} m.traceSrc src { s with seq := (s.seq + 1) % 65536, lost := 0 } } else m

/-- Space has returned to buffer `b`: its sources write their `LOST` records. -/
def Mod.traceSpace (m : Mod) (b : Nat) : Mod :=
  if m.get F.TRC_BUF_size_log2 b = 0 then m
  else m.each ((List.range 21).filter fun s => traceBuf s == b) fun m src =>
    let n := m.traceCap b
    if m.on F.TRC_BUF_mode b && (m.get F.TRC_PTR_head b + 1) % n = m.get F.TRC_PTR_tail b % n then m else m.traceLost src

/-- One record of source `src`, after the `LOST` record that its earlier losses call for; an event within 25 ns of the
source's last record is lost (R404). -/
def Mod.traceRaw (m : Mod) (src type ctx queue layer payload : Nat) : Mod :=
  let b := traceBuf src
  let s := Tab.get ({} : TraceSrc) m.traceSrc src
  if m.get F.TRC_BUF_size_log2 b = 0 then m
  else if s.stamp.any (fun t => decide (m.time < t + 25)) then
    { m with traceSrc := Tab.set {} m.traceSrc src { s with lost := satAdd 32 s.lost 1 } }
  else
    let m := m.traceLost src
    let s := Tab.get ({} : TraceSrc) m.traceSrc src
    let ok := s.lost = 0
    let (ok, m) := if ok then m.tracePut b (traceWord m.time s.seq type src ctx queue layer payload) else (false, m)
    let s := if ok then { s with seq := (s.seq + 1) % 65536, stamp := some m.time } else { s with lost := satAdd 32 s.lost 1 }
    { m with traceSrc := Tab.set {} m.traceSrc src s }

/-- Writes a trace record when trace, its type and its context are enabled (R403); context 0xFF is no context. -/
def Mod.trace (m : Mod) (src type ctx queue layer payload : Nat) : Mod :=
  if m.on F.TRC_CFG_enable && (m.get F.TRC_CFG_type_mask).testBit type
      && (ctx == 0xFF || (m.get F.TRC_CTX_MASK_ctx).testBit ctx) then
    m.traceRaw src type ctx queue layer payload
  else m

/-- A record of every partition in `parts`, by its sequencer. -/
def Mod.traceParts (m : Mod) (parts type ctx queue layer payload : Nat) : Mod :=
  m.each (bitList 16 parts) fun m p => m.trace p type ctx queue layer payload

end Sys2Proof.Machine
end

