-- ==== Sys2Proof/Machine/Watch.lean ====
section
/-! DEFINITION. Tensor watch (R406-R411): entries, firing, local copies and remote copies. -/

namespace Sys2Proof.Machine

/-! ### Watch entries (Table 13.7) -/

def Wt.desc (e : W256) : Nat := bits e.toNat 0 17
def Wt.valid (e : W256) : Bool := bit e.toNat 17
def Wt.owner (e : W256) : Nat := bits e.toNat 18 6
def Wt.mode (e : W256) : Nat := bits e.toNat 24 2
def Wt.phase (e : W256) : Nat := bits e.toNat 26 4
def Wt.every (e : W256) : Nat := bits e.toNat 32 32
def Wt.step (e : W256) : Nat := bits e.toNat 64 64
def Wt.region (e : W256) : Nat := bits e.toNat 128 10
def Wt.off (e : W256) : Nat := bits e.toNat 138 40
def Wt.remote (e : W256) : Bool := bit e.toNat 178
def Wt.slotPages (e : W256) : Nat := bits e.toNat 192 24
def Wt.nSlots (e : W256) : Nat := bits e.toNat 216 16
def Wt.dstAddr (e : W256) : Nat := bits e.toNat 232 24

/-- Entry `i` of the watch table. -/
def Mod.watchEntry (m : Mod) (i : Nat) : W256 := Tab.get 0 m.watch i

/-- R407: the status of a written entry for context `c`. -/
def Mod.watchCheck (m : Mod) (c : Nat) (e : W256) : Status :=
  if Wt.mode e = 3 || !zeroIn e.toNat [(30, 2), (179, 13)] || bits e.toNat 138 12 ≠ 0
    || Wt.slotPages e = 0 || Wt.nSlots e = 0 then ST_BAD_ATTR
  else if Wt.mode e = 1 && Wt.every e = 0 then ST_BAD_ATTR
  else if Wt.mode e = 2 && Wt.phase e ≠ 15 then ST_BAD_ATTR
  else if !Wt.remote e && Wt.dstAddr e ≠ 0 then ST_BAD_ATTR
  else if Wt.remote e then ST_OK
  else
    let g := m.region c (Wt.region e)
    if !Rgn.valid g || !Rgn.wr g || Rgn.hostwin g
      || Rgn.size g < Wt.off e + 4096 + Wt.nSlots e * Wt.slotPages e * 4096 then ST_BAD_REGION
    else ST_OK

/-- Whether a valid entry fires for a write with ordinal `ord` in the context's step (R408). -/
def Mod.watchFires (m : Mod) (c : Nat) (e : W256) (ord : Nat) : Bool :=
  let ph := Wt.phase e == 15 || Wt.phase e == ord
  let s := m.get F.STEP_CUR_step c
  match Wt.mode e with
  | 0 => m.stepOpen c && Wt.step e == s && ph
  | 1 => m.stepOpen c && decide (Wt.step e ≤ s) && (s - Wt.step e) % Wt.every e == 0 && ph
  | _ => true

/-- The header of Table 13.8. `alt` is the buffer copied. -/
def watchHeader (m : Mod) (c i layer : Nat) (d : W512) (alt : Bool) : List Byte :=
  leBytes 8 m.time ++ leBytes 8 (m.get F.STEP_CUR_step c) ++ leBytes 4 (Wt.desc (m.watchEntry i) + i * 2 ^ 24)
  ++ leBytes 1 (Ds.fmt d + 16 * b2n alt) ++ leBytes 1 c ++ leBytes 2 layer ++ leBytes 4 (Ds.scale d)
  ++ leBytes 2 (Pl.ver (Ds.plan d)) ++ leBytes 2 0 ++ leBytes 16 (bits d.toNat 384 128)
  ++ leBytes 8 (planeBytes (Ds.fmt d) (Ds.count d)) ++ leBytes 8 (auxBytes (Ds.aux d) (Ds.count d))

/-- The bytes of a copy: header, data plane, auxiliary plane from the next 64-byte boundary (Table 13.8). -/
def Mod.watchBytes (m : Mod) (c i layer : Nat) (d : W512) (g : W256) (alt : Bool) : List Byte :=
  let o := Rgn.base g + (if Ds.ab d && alt then Ds.addrB d else Ds.addrA d)
  let db := planeBytes (Ds.fmt d) (Ds.count d)
  let xb := auxBytes (Ds.aux d) (Ds.count d)
  let body := watchHeader m c i layer d alt ++ m.rd o db
  if xb = 0 then body else slice body 0 (ceilDiv body.length 64 * 64) ++ m.rd (o + Ds.auxOff d) xb

/-- A skipped copy: counted, traced, and logged once per entry and step, or once per second in `ANY` mode (R410). -/
def Mod.watchSkip (m : Mod) (c i layer : Nat) : Mod :=
  let m := m.bump F.WATCH_STAT_skipped i 1
  let m := m.trace 16 0x0F c 0 layer (i + 256 + (m.get F.WATCH_STAT_copies i) * 2 ^ 32)
  let k : W64 := BitVec.ofNat 64 (if Wt.mode (m.watchEntry i) = 2 then m.time / 10 ^ 9 else m.get F.STEP_CUR_step c)
  if m.watchSeen.contains (i, k) then m
  else
    let m := { m with watchSeen := (i, k) :: m.watchSeen.filter (·.1 != i) }
    m.log { st := ST_WATCH_SKIPPED, cls := .event, block := Blk.WATCH, ctx := c, d0 := i }

/-- A copy counted as written. -/
def Mod.watchDone (m : Mod) (c i layer : Nat) : Mod :=
  let m := m.bump F.WATCH_STAT_copies i 1
  m.trace 16 0x0F c 0 layer (i + (m.get F.WATCH_STAT_copies i) * 2 ^ 32)

/-- Writes a copy into a ring (R410): whether it was written, and the module after it. -/
def Mod.watchRing (m : Mod) (c region off slotBytes slots : Nat) (data : List Byte) : Bool × Mod :=
  let g := m.region c region
  if !Rgn.valid g || !Rgn.wr g || Rgn.hostwin g || Rgn.size g < off + 4096 + slots * slotBytes || !m.rgnUp g
    || slotBytes < data.length || slots = 0 then (false, m)
  else
    let a := Rgn.base g + off
    let written := m.rdNat a 8
    let consumed := m.rdNat (a + 8) 8
    if slots ≤ (written + 2 ^ 64 - consumed) % 2 ^ 64 then (false, m)
    else
      let f := Rgn.fine g
      (true, ((m.reach f .rd a 16).wr (a + 4096 + written % slots * slotBytes) data f).wr a (leBytes 8 (written + 1)) f)

/-- Parts of at most 65,536 bytes with their offsets; `k` bounds their number. -/
def watchParts : Nat → Nat → List Byte → List (Nat × List Byte)
  | 0, _, _ => []
  | k + 1, off, l => if l.isEmpty then [] else (off, l.take 65536) :: watchParts k (off + 65536) (l.drop 65536)

/-- Sends a remote copy in packets of at most 65,536 payload bytes, each with its offset in `opaque` (R411). -/
def Mod.watchSend (m : Mod) (c i layer : Nat) (e : W256) (data : List Byte) : Bool × Mod :=
  let id := m.watchId
  let (ok, m) := (watchParts (data.length / 65536 + 1) 0 data).foldl (fun (a : Bool × Mod) p =>
    let (s, m) := a.2.send (some c) 5 0x30 (Wt.dstAddr e)
      (.watch id (BitVec.ofNat 10 (Wt.region e)) (Wt.off e) (Wt.slotPages e * 4096) (Wt.nSlots e) p.2) 0 p.1
    (a.1 && s, m)) (true, m)
  if ok then
    (true, { m with watchId := id + 1, watchWaits := m.watchWaits ++ [{ id := id, entry := i, ctx := c, layer := layer }] })
  else (false, m)

/-- The copy of one firing entry (R409-R411). A remote copy is counted when its answer arrives. -/
def Mod.watchCopy (m : Mod) (c i layer : Nat) (d : W512) (g : W256) (alt : Bool) : Mod :=
  let e := m.watchEntry i
  let data := m.watchBytes c i layer d g alt
  let o := Rgn.base g + (if Ds.ab d && alt then Ds.addrB d else Ds.addrA d)
  let m := (m.reach (Rgn.fine g) .rd o (planeBytes (Ds.fmt d) (Ds.count d))).reach (Rgn.fine g) .rd (o + Ds.auxOff d)
    (auxBytes (Ds.aux d) (Ds.count d))
  if Wt.remote e then
    let (ok, m) := m.watchSend c i layer e data
    if ok then m else m.watchSkip c i layer
  else
    let (ok, m) := m.watchRing c (Wt.region e) (Wt.off e) (Wt.slotPages e * 4096) (Wt.nSlots e) data
    if ok then m.watchDone c i layer else m.watchSkip c i layer

/-- A completed write of descriptor `j` of context `c` (WATCH_FIRE): counts it in the step and fires its entries in
ascending order (R408, R409). -/
def Mod.watchFire (m : Mod) (c j layer : Nat) (alt : Bool) : Mod :=
  let x := m.ctx c
  let ord := match x.writeCount.find? (·.1 == j) with | some p => p.2 | none => 0
  let m := m.setCtx c { x with writeCount := (j, ord + 1) :: x.writeCount.filter (·.1 != j) }
  let d := m.desc (m.entryOf c j)
  let g := m.region c (Ds.region d)
  m.watch.foldl (fun m w =>
    if Wt.valid w.2 && Wt.owner w.2 == c && Wt.desc w.2 == j && m.watchFires c w.2 ord then
      m.watchCopy c w.1 layer d g alt
    else m) m

/-! ### Remote copies at their destination, and their answers (R411) -/

/-- Bytes of the whole copy, as its header states them; none until the header is there. -/
def watchTotal (l : List Byte) : Option Nat :=
  if l.length < 64 then none
  else
    let d := leNat (slice l 0x30 8)
    let x := leNat (slice l 0x38 8)
    some (if x = 0 then 64 + d else ceilDiv (64 + d) 64 * 64 + x)

/-- WATCH_DATA_RECEIVE: bytes of a copy; a whole copy is written into the ring or skipped, and answered. -/
def Mod.watchData (m : Mod) (p : Packet) : Mod :=
  match p.payload with
  | .watch id region off slotBytes slots l =>
    let src := p.hdr.src.toNat
    let have_ := match m.watchIn.find? (fun e => e.1 == src && e.2.1 == id) with | some e => e.2.2 | none => []
    let rest := m.watchIn.filter fun e => !(e.1 == src && e.2.1 == id)
    let all := have_ ++ l
    match watchTotal all with
    | some n =>
      if all.length < n then { m with watchIn := (src, id, all) :: rest }
      else
        let c := p.hdr.ctx.toNat
        let (ok, m) := ({ m with watchIn := rest }).watchRing c region.toNat off slotBytes slots all
        m.sendTo (some c) 0 0x31 src (.watchAck id ok)
    | none => { m with watchIn := (src, id, all) :: rest }
  | _ => m

/-- The copy `id` is answered, or its answer is missing (WATCH_ACK_RECEIVE, WATCH_ACK_TIMEOUT). -/
def Mod.watchAnswer (m : Mod) (id : Nat) (written : Bool) : Mod :=
  match m.watchWaits.find? (·.id == id) with
  | none => m
  | some w =>
    let m := { m with watchWaits := m.watchWaits.filter (·.id != id) }
    if written then m.watchDone w.ctx w.entry w.layer else m.watchSkip w.ctx w.entry w.layer

end Sys2Proof.Machine
end

