-- ==== Sys2Proof/Machine/Queue.lean ====
section
/-! DEFINITION. Queues (R139-R146), the checks and events at their heads, prefetch-list starts (R165), issue and
completion of operations (R142, R145, R169), and pending enables (R384). -/

namespace Sys2Proof.Machine

/-! ### Configuration of a queue -/

def Mod.qMask (m : Mod) (i : Nat) : Nat := m.get F.Q_CFG_part_mask i
def Mod.qSize (m : Mod) (i : Nat) : Nat := 2 ^ m.get F.Q_CFG_size_log2 i
def Mod.qOn (m : Mod) (i : Nat) : Bool := m.on F.Q_CFG_enable i

/-- Records written and not yet completed or skipped (R140). -/
def Queue.waiting (q : Queue) : Nat := (q.tail - q.head).toNat

/-- Whether the module is in the failed state (R367). -/
def Mod.failed (m : Mod) : Bool := m.on F.FLT_SUMMARY_module_failed

/-! ### Fetch (R139, R141) -/

/-- The region that holds the ring of queue `i`. -/
def Mod.ringRgn (m : Mod) (i : Nat) : W256 := m.region (qCtx i) (m.get F.Q_CFG_region i)

/-- Slot of record `n` of queue `i`: physical address and bytes. -/
def Mod.slotAt (m : Mod) (i n : Nat) : Nat × Nat :=
  let sz := if m.get F.Q_CFG_stream_ver i = 1 then 64 else 128
  (Rgn.base (m.ringRgn i) + m.get F.Q_BASE_off i * 128 + sz * (n % m.qSize i), sz)

/-- Decodes the bytes of a slot for a stream version. -/
def decodeSlot (ver : Nat) (l : List Byte) : Fetched :=
  let x := leNat l
  if bits x 8 4 ≠ ver then { rcd := 0, early := ST_BAD_VERSION }
  else if ver = 1 then
    match opRow (bits x 0 8) with
    | some row =>
      if !row.v1 then { rcd := 0, early := ST_BAD_VERSION }
      else { rcd := v1Native x, early := if v1Form x then ST_OK else ST_BAD_RECORD }
    | none => { rcd := v1Native x, early := ST_OK }
  else { rcd := BitVec.ofNat 1024 x, early := ST_OK }

/-- Reads record `n` of queue `i`; a poisoned slot is not decoded (R141). -/
def Mod.fetchOne (m : Mod) (i n : Nat) : Fetched :=
  let (pa, sz) := m.slotAt i n
  if m.poisonedIn pa sz then { rcd := 0, early := ST_MEM_UNCORR }
  else decodeSlot (m.get F.Q_CFG_stream_ver i) (m.rd pa sz)

/-- Prefetches up to 8 records ahead of the head (RECORD_FETCH, R141). -/
def Mod.refill (m : Mod) (i : Nat) : Mod :=
  let q := m.queue i
  if m.qOn i && m.ctxState (qCtx i) == 1 then
    let have_ := q.fetched.length
    let want := min q.waiting 8
    let ns := (List.range (want - have_)).map (q.head.toNat + have_ + ·)
    let new := ns.map (m.fetchOne i)
    let m := m.each ns fun m n => m.reach (Rgn.fine (m.ringRgn i)) .rd (m.slotAt i n).1 (m.slotAt i n).2
    m.setQueue i { q with fetched := q.fetched ++ new }
  else m

/-! ### Deadlock registrations (R376) -/

/-- Registers one signal slot; a pair beyond the 65,536th marks its flag unknown. -/
def Mod.registerSig (m : Mod) (s : Sig) : Mod :=
  let h := m.hang
  if h.sigs.any (fun x => x.flag == s.flag && x.queue == s.queue) || (h.sigs.map fun x => (x.flag, x.queue)).dedup.length < 65536 then
    { m with hang := { h with sigs := h.sigs ++ [s] } }
  else ({ m with hang := { h with unknown := insertNew s.flag h.unknown } }).bump F.HANG_STAT_overflow 0 1

/-- Registers the signal slots of record `n` of queue `i`. -/
def Mod.registerRec (m : Mod) (i n : Nat) : Mod :=
  let f := m.fetchOne i n
  if f.early ≠ ST_OK then m
  else m.each (List.range (min 4 (Rc.nSig f.rcd))) fun m s =>
    m.registerSig { flag := m.ctxFlag (qCtx i) (Rc.sigFlag f.rcd s), queue := i, num := BitVec.ofNat 32 n,
                    isSet := (Rc.sigSet f.rcd).testBit s, value := Rc.sigVal f.rcd s }

/-- Drops registrations, and unknown marks of flags that no queue holds a registration for. -/
def Mod.dropSigs (m : Mod) (keep : Sig → Bool) : Mod :=
  let s := m.hang.sigs.filter keep
  { m with hang := { m.hang with sigs := s, unknown := m.hang.unknown.filter fun f => s.any (·.flag == f) } }

/-! ### Halting (R145) and its interrupts (R433) -/

/-- Whether `PCI_QHALT` holds a bit for a queue of a context not bound to a VF. -/
def Mod.qhaltPending (m : Mod) : Bool :=
  (List.range 64).any fun c => !m.on F.CTX_CFG_vf_bound c && bits (m.get F.PCI_QHALT_halted (c / 4)) (16 * (c % 4)) 16 != 0

/-- Halts queue `i` with a status. -/
def Mod.halt (m : Mod) (i : Nat) (st : Status) : Mod :=
  let c := qCtx i
  let was := m.qhaltPending
  let m := m.setQueue i { m.queue i with halted := some st, status := st }
  let m := m.setBit F.PCI_QHALT_halted (i / 64) (i % 64) true
  if m.on F.CTX_CFG_vf_bound c then m.msix (m.get F.CTX_CFG_vf c + 1) 0
  else if was then m else m.msix 0 2

/-! ### What holds a queue -/

/-- Partitions on which an interlude for which `who` holds is in progress for context `c`. -/
def Mod.lentParts (m : Mod) (c : Nat) (who : Interlude → Bool) : Nat :=
  ((m.ctx c).iludes.filter fun il => il.live && who il).foldl (fun a il => a ||| il.parts) 0

/-- Whether context `c` has an `INTERLUDE` in flight, on some partition of `parts`. -/
def Mod.lends (m : Mod) (c : Nat) (hit : Nat → Bool) : Bool :=
  m.ctxs.any fun e => e.2.iludes.any fun il => il.train == c && hit il.parts

/-- Whether an interlude keeps context `c` from issuing on some partition of `parts` (R162). -/
def Mod.interludeHolds (m : Mod) (c parts : Nat) : Bool :=
  m.lends c (fun p => (p &&& parts) != 0)
  || ((m.ctx c).iludes.any fun il => il.ended && (il.parts &&& parts) != 0)
  || (m.on F.CTX_CFG_interlude_only c && (m.lentParts c (fun _ => true) &&& parts) != parts)

/-- Whether queue `i` is `HELD`: its context not `ACTIVE`, outside its interlude, restoring (R350), or the module failed
(R367). -/
def Mod.held (m : Mod) (i : Nat) : Bool :=
  let c := qCtx i
  m.ctxState c != 1 || m.failed || m.interludeHolds c (m.qMask i) || (m.ctx c).restore.isSome

/-- Whether a running operation is a compute operation (R172). -/
def isCompute (code : Nat) : Bool := decide (0x10 ≤ code) && decide (code ≤ 0x23)

/-- Compute operations that context `c` has running on partition `p`. -/
def Mod.computeOn (m : Mod) (c p : Nat) : Nat :=
  ((ctxQueues c).filter fun i => match (m.queue i).op with
    | some o => isCompute (Rc.opcode o.rcd) && o.parts.testBit p
    | none => false).length

/-- Whether a partition can run shares: in service, powered, clocked, its sequencer neither parked nor asked to park. -/
def Mod.partReady (m : Mod) (p : Nat) : Bool :=
  m.get F.PART_STAT_state p == 2 && m.get F.PWR_PART_STAT_gate p == 0 && (m.part p).park.isNone

/-- Whether the head record of queue `i` waits for a compute slot on some partition (R172). -/
def Mod.slotBlocked (m : Mod) (i : Nat) (r : W1024) : Bool :=
  isCompute (Rc.opcode r) && (bitList 16 (m.qMask i)).any fun p => decide (4 ≤ m.computeOn (qCtx i) p)

/-- The head record of queue `i`, once it has passed checks 1 to 4. -/
def Mod.headRec (m : Mod) (i : Nat) : Option W1024 :=
  let q := m.queue i
  if m.qOn i && q.halted.isNone && q.op.isNone && q.waiting != 0 && q.checked then
    match q.fetched with
    | f :: _ => some f.rcd
    | [] => none
  else none

/-- The head record when it could issue but for the partitions' active contexts (R142, R159). A begin operation waits for the
interludes of its context (R162). -/
def Mod.headReady (m : Mod) (i : Nat) : Option W1024 :=
  match m.headRec i with
  | some r =>
    if !m.held i && (m.firstWait (qCtx i) r).isNone && !m.slotBlocked i r
        && !(Rc.opcode r == 0x60 && m.lends (qCtx i) (fun _ => true))
        && (bitList 16 (m.qMask i)).all (fun p => !m.partUp p || m.partReady p) then some r
    else none
  | none => none

/-- The head record when it may issue (R142): every partition of its mask that is in service has the context active. -/
def Mod.canIssue (m : Mod) (i : Nat) : Option W1024 :=
  match m.headReady i with
  | some r => if (bitList 16 (m.qMask i)).all (fun p => !m.partUp p || (m.part p).active == some (qCtx i)) then some r else none
  | none => none

/-- State of queue `i` as `Q_STAT` reports it: state, blocked flag. -/
def Mod.queueState (m : Mod) (i : Nat) : Nat × Nat :=
  let q := m.queue i
  let c := qCtx i
  if !m.qOn i then (0, 0)
  else if m.failed then (5, 0)
  else if q.halted.isSome then (4, 0)
  else if m.held i then (5, 0)
  else if q.op.isSome then (2, 0)
  else if q.waiting = 0 then (1, 0)
  else match m.headRec i with
    | none => (2, 0)
    | some r => match m.firstWait c r with
      | some w => (3, Rc.waitFlag r w)
      | none =>
        if m.slotBlocked i r || (bitList 16 (m.qMask i)).any (fun p => m.partUp p && (m.part p).park.isSome) then (3, 0)
        else (2, 0)

/-- `Q_STAT[i]`, and `DB_STAT` (R139-R146). -/
def Mod.qStat (m : Mod) (i : Nat) : Nat :=
  let s := m.queueState i
  s.1 + s.2 * 2 ^ 16 + (m.queue i).status * 2 ^ 32

/-! ### Prefetch lists: start (PREFETCH_LIST_START, R164, R165) -/

/-- Starts the list of layer `l` of context `c` for queue `i`, once per step; list numbers at or above `pf_count` name
none. -/
def Mod.pfStart (m : Mod) (c l i : Nat) : Mod :=
  let x := m.ctx c
  if m.get F.CTX_PF_CFG_pf_count c ≤ l || x.pfMarks.contains l then m
  else
    let m := m.setCtx c { x with pfMarks := l :: x.pfMarks, pfRun := x.pfRun ++ [{ layer := l, queue := i }] }
    m.traceParts (m.qMask i) 0x09 c (i % 16) l (l * 2 ^ 16)

/-- A head blocked on a prefetch-eligible wait starts its layer's list (R165). -/
def Mod.pfHead (m : Mod) (i : Nat) : Mod :=
  match m.headRec i with
  | some r =>
    let c := qCtx i
    if !m.held i && Rc.layer r != 0xFFFF
        && (List.range (Rc.nWait r)).any (fun w => (Rc.peMask r).testBit w && !m.waitHolds c r w) then
      m.pfStart c (Rc.layer r) i
    else m
  | none => m

/-! ### The head of a queue (RECORD_AT_HEAD, R170) -/

/-- Fetches for queue `i`; a new head passes checks 1 to 4 or halts the queue; a blocked head may start its prefetch
list. -/
def Mod.headArrive (m : Mod) (i : Nat) : Mod :=
  let q := m.queue i
  if m.qOn i && m.ctxState (qCtx i) == 1 && q.halted.isNone && q.op.isNone && q.waiting != 0 then
    let m := m.refill i
    let q := m.queue i
    match q.fetched with
    | [] => m
    | f :: _ =>
      if q.checked then m.pfHead i
      else
        let st := m.headCheck (qCtx i) f
        if st ≠ ST_OK then m.halt i st
        else
          let m := m.setQueue i { q with checked := true, blocked := (m.firstWait (qCtx i) f.rcd).map (Rc.waitFlag f.rcd) }
          let m := match m.firstWait (qCtx i) f.rcd with
            | some w => m.traceParts (m.qMask i) 0x03 (qCtx i) (i % 16) (Rc.layer f.rcd)
                (Rc.waitFlag f.rcd w + Rc.waitTgt f.rcd w * 2 ^ 64)
            | none => m
          m.pfHead i
  else m

/-- A blocked head whose waits now hold is unblocked: `Q_UNBLOCK`. -/
def Mod.unblock (m : Mod) (i : Nat) : Mod :=
  let q := m.queue i
  match q.blocked, m.headRec i with
  | some f, some r =>
    if (m.firstWait (qCtx i) r).isNone then
      (m.setQueue i { q with blocked := none }).traceParts (m.qMask i) 0x04 (qCtx i) (i % 16) (Rc.layer r) f
    else m
  | _, _ => m

/-- Every queue of a context looks at its head. -/
def Mod.ctxHeads (m : Mod) (c : Nat) : Mod := m.each (ctxQueues c) Mod.headArrive

/-- Passes the head record of queue `i`: completed or skipped (R140, R376). -/
def Mod.headPass (m : Mod) (i : Nat) : Mod :=
  let q := m.queue i
  let m := m.dropSigs fun s => !(s.queue == i && s.num == q.head)
  (m.setQueue i { q with head := q.head + 1, fetched := q.fetched.drop 1, checked := false, op := none,
                         stalled := false, blocked := none }).headArrive i

/-! ### Issue -/

/-- Marks the record of queue `i` issued as operation `o`. -/
def Mod.begin_ (m : Mod) (i : Nat) (o : Op) : Mod :=
  let m := m.setQueue i { m.queue i with op := some o }
  let m := m.each (bitList 16 (m.qMask i)) fun m p => m.cnt (8 * p + 5) 1
  m.traceParts (m.qMask i) 0x01 (qCtx i) (i % 16) (Rc.layer o.rcd) (Rc.opcode o.rcd + (m.queue i).head.toNat * 2 ^ 32)

/-- Changes the operation in flight of queue `i`. -/
def Mod.modOp (m : Mod) (i : Nat) (f : Op → Op) : Mod :=
  match (m.queue i).op with
  | some o => m.setQueue i { m.queue i with op := some (f o) }
  | none => m

/-! ### Publication (R101, R102) -/

/-- Publishes `fmt` and `scale` of an entry as one update. -/
def Mod.publish (m : Mod) (p : Pub) : Mod :=
  m.setDesc p.entry (Ds.put (Ds.put (m.desc p.entry) 0 4 p.fmt) 64 32 p.scale)

/-! ### Queue enable (R146), and enables that wait for a shutdown (R384) -/

/-- Whether the enable of queue `i` with configuration `v` passes R146. -/
def Mod.queueOk (m : Mod) (i v : Nat) : Bool :=
  let c := qCtx i
  let mask := bits v 16 16
  let g := m.region c (bits v 32 10)
  let sz := (if bits v 1 2 = 1 then 64 else 128) * 2 ^ bits v 3 5
  mask != 0 && (mask &&& m.get F.CTX_CFG_part_mask c) == mask
  && decide (6 ≤ bits v 3 5) && decide (bits v 3 5 ≤ 20) && (bits v 1 2 == 1 || bits v 1 2 == 2)
  && Rgn.valid g && Rgn.rd g && !Rgn.hostwin g && decide (m.get F.Q_BASE_off i * 128 + sz ≤ Rgn.size g)

/-- Whether an operation of queue `i` is still running. -/
def Mod.qBusy (m : Mod) (i : Nat) : Bool := (m.queue i).op.isSome

/-- Executes an enable of queue `i` with configuration word `v`: both counters start at 0. -/
def Mod.queueEnableNow (m : Mod) (i v : Nat) : Mod :=
  if !m.queueOk i v then m.refuseQueue ST_BAD_QUEUE Blk.Q i
  else
    let m := m.setRegAt (R.Q_CFG.base + 64 * i) 0 (v &&& R.Q_CFG.rw)
    let m := m.dropSigs (·.queue != i)
    m.setQueue i { flagSel := (m.queue i).flagSel, status := (m.queue i).status }

/-- A pending enable of queue `i` executes once no operation of the queue runs (R384). The configuration written with the
request stands in `Q_CFG` with `enable` 0. -/
def Mod.queuePending (m : Mod) (i : Nat) : Mod :=
  if (m.get F.FLT_PEND_Q_queue (i / 64)).testBit (i % 64) && !m.qBusy i && !m.qOn i then
    let m := m.setBit F.FLT_PEND_Q_queue (i / 64) (i % 64) false
    m.queueEnableNow i (m.regAt (R.Q_CFG.base + 64 * i) 0 + 1)
  else m

/-! ### Completion (R142, R145, R150, R169) -/

/-- Slots whose completion is a write of a tensor of the issuing context (R408): outputs and atomic targets. -/
def Op.written (o : Op) : List Cap :=
  match opRow (Rc.opcode o.rcd) with
  | some row => o.caps.filter fun x => useOf row x.slot != .rd && !x.viaAlias
  | none => []

/-- `OP_DONE` and its counters. The share's cycles follow a schedule the spec does not fix. -/
def Mod.opDone (m : Mod) (i : Nat) (o : Op) (st : Status) : Mod :=
  let n := (m.queue i).head.toNat
  m.traceParts (m.qMask i) 0x02 (qCtx i) (i % 16) (Rc.layer o.rcd)
    (Rc.opcode o.rcd + st * 2 ^ 16 + n * 2 ^ 32 + (Config.cycleCount (1000 + i) m.time % 2 ^ 64) * 2 ^ 64)

/-- Frees what an ended operation held beside its partitions: its collective engine or place in the waiting list (R273),
and its outstanding host reads, whose completions are discarded (R382). -/
def Mod.freeHeld (m : Mod) (i : Nat) (o : Op) : Mod :=
  let m := match o.coll with
    | some k => match k.engine with
      | some e =>
        let m := m.trace (17 + e / 4) 0x07 (qCtx i) (i % 16) (Rc.layer o.rcd)
          (1 + 2 * e + o.status * 2 ^ 16 + Rc.pf o.rcd 0 32 32 * 2 ^ 32)
        let m := if Rc.opcode o.rcd = 0x55 then m.setRegAt (R.UPD_ENG_STAT.base + 8 * e) 0 0 else m
        m.setRegAt (R.COL_STAT.base + 8 * e) 0 0
      | none => m
    | none => m
  let m := { m with collWait0 := m.collWait0.filter (· != i), collWait1 := m.collWait1.filter (· != i),
                    pcie := { m.pcie with reqs := m.pcie.reqs.filter (·.queue != i) } }
  (m.set F.COL_QUEUE_pending 0 m.collWait0.length).set F.COL_QUEUE_pending 1 m.collWait1.length

/-- Completes the operation of queue `i`: writes visible, then publications, watch copies, and on success its signals in
slot order and the head's advance; an error status halts the queue and signals nothing. -/
def Mod.complete (m : Mod) (i : Nat) : Mod :=
  match (m.queue i).op with
  | none => m
  | some o =>
    let c := qCtx i
    let m := m.freeHeld i o
    let m := m.wrOuts (finesOf (o.caps.map (·.rgn))) o.writes o.nibbles
    let m := o.pubs.foldl Mod.publish m
    if o.status = ST_OK then
      let m := o.written.foldl (fun m x =>
        m.watchFire c (Rc.desc o.rcd x.slot) (Rc.layer o.rcd) (if Rc.opcode o.rcd = 0x55 then !Ds.cur x.desc else Ds.cur x.desc)) m
      let m := m.opDone i o ST_OK
      let m := m.cnt (632 + 4 * c + 3) 1
      let m := m.signals c o.rcd o.sigMask
      (m.headPass i).queuePending i
    else
      let m := m.opDone i o o.status
      let m := m.setQueue i { m.queue i with op := none, checked := false }
      (m.halt i o.status).queuePending i

/-! ### The end of a prefetch list (R166, R374) -/

/-- Ends list `l` with a status: what it asked of the host is dropped, and `PREFETCH_LIST` operations that wait for it may
complete. -/
def Mod.pfEnd (m : Mod) (c l : Nat) (st : Status) : Mod :=
  let x := m.ctx c
  let m := m.setCtx c { x with pfRun := x.pfRun.filter (·.layer != l),
                               pfBad := if st = ST_OK then x.pfBad else (l, st) :: x.pfBad }
  let m := { m with pcie := { m.pcie with reqs := m.pcie.reqs.filter fun q => q.list != some (c, l) } }
  m.each (ctxQueues c) fun m i => match (m.queue i).op with
    | some o => if Rc.opcode o.rcd = 0x35 && Rc.pf o.rcd 0 0 16 = l && !o.ready then
        m.modOp i fun o => { o with ready := true, status := st } else m
    | none => m

/-- A list whose item failed (R166). -/
def Mod.pfFail (m : Mod) (c l : Nat) (st : Status) : Mod :=
  (m.log { st := st, cls := .error, block := Blk.CTX, ctx := c, d0 := l }).pfEnd c l st

/-- A `PREFETCH_LIST` that is ended early stops the list that it started. -/
def Mod.pfStop (m : Mod) (i : Nat) (r : W1024) (st : Status) : Mod :=
  let l := Rc.pf r 0 0 16
  if Rc.opcode r = 0x35 && (m.ctx (qCtx i)).pfRun.any (fun p => p.layer == l && p.queue == i) then m.pfEnd (qCtx i) l st else m

/-- The bytes that an operation ended early would have written hold free values; so do its single nibbles. -/
def Mod.lostWrites (m : Mod) (o : Op) : List (Nat × Byte) × List (Nat × Bool × Nat) × Mod :=
  let (l, m) := m.drawBytes (o.writes.length + o.nibbles.length)
  ((o.writes.map (·.1)).zip l,
    (o.nibbles.zip (l.drop o.writes.length)).map (fun h => (h.1.1, h.1.2.1, h.2.toNat % 16)), m)

/-- Ends the operation of queue `i` with an error before its shares finish: its buffered writes are lost, since its outputs
are undefined; free bytes stand in every byte it would have written. The statistics it gathered are lost with it (R107). -/
def Mod.abortOp (m : Mod) (i : Nat) (st : Status) : Mod :=
  match (m.queue i).op with
  | none => m
  | some o =>
    let (ws, hs, m) := m.lostWrites o
    let m := m.modOp i fun o => { o with writes := ws, nibbles := hs, pubs := [], status := st, ready := true }
    (m.pfStop i o.rcd st).complete i

/-- Stops the operation of queue `i` at teardown: no status, no signal, outputs undefined; the head record stays (R382). -/
def Mod.stopOp (m : Mod) (i : Nat) : Mod :=
  match (m.queue i).op with
  | none => m
  | some o =>
    let (ws, hs, m) := m.lostWrites o
    let m := (m.freeHeld i o).wrOuts (finesOf (o.caps.map (·.rgn))) ws hs
    m.setQueue i { m.queue i with op := none, checked := false }

/-! ### Issue of a record with its checks (R142, R170) -/

/-- Whether tensor entry `e` is one whose casts the generation of context `c` in drain takes from it (R332). -/
def Mod.drains (m : Mod) (c e : Nat) : Bool :=
  (m.ctx c).drain.isSome && (m.ctx c).castList.any fun x => m.entryOf c (Ce.desc x) == e

/-- Whether the operation writes a current buffer that a generation in drain has as its source (R332): it waits at issue. -/
def Mod.sourceHeld (m : Mod) (r : W1024) (caps : List Cap) : Bool :=
  Rc.opcode r != 0x55 && caps.any fun x =>
    (match opRow (Rc.opcode r) with | some row => useOf row x.slot != .rd | none => false)
    && Ds.ab x.desc && !m.stepOpen x.owner && m.drains x.owner x.entry

/-- Issues the head record of queue `i` when it may issue and its opcode is `code`: `chk` makes checks 7 to 9 on the
captured tensors, `run` carries out the operation once it is marked issued. A failing check halts the queue (class 2). -/
def Mod.issue (m : Mod) (i code : Nat) (chk : Mod → W1024 → List Cap → Status)
    (run : Mod → W1024 → List Cap → Mod) : Mod :=
  match m.canIssue i with
  | none => m
  | some r =>
    if Rc.opcode r ≠ code then m
    else match m.captureOp (qCtx i) (m.qMask i) r with
      | .error st => m.halt i st
      | .ok caps =>
        let st := if m.featOk (featNeed r caps) then chk m r caps else ST_UNSUPPORTED
        if st ≠ ST_OK then m.halt i st
        else if m.sourceHeld r caps then m
        else run (m.begin_ i { rcd := r, caps := caps, parts := if code < 0x50 then m.qMask i else 0 }) r caps

end Sys2Proof.Machine
end

