-- ==== Sys2Proof/Machine/Faults.lean ====
section
/-! DEFINITION. What a fault takes out of service: ports (R264, R265), partitions (R364-R366), stacks (R222), the module
(R367), and the memory errors that lead there (R219, R220). -/

namespace Sys2Proof.Machine

/-! ### Ports -/

/-- Lanes of a mask. -/
def laneCount (mask : Nat) : Nat := popCount 8 mask

/-- The state that a notice reports for a port: a link out of service is `DOWN` (R238, R264). -/
def noticeState (st : Nat) : Nat := if st = 2 || st = 3 || st = 4 then st else 5

/-- A link notice for port `n`'s link with a state and width (R264); this module acts on it as every receiver does, before
the next command. During a global stop it is kept for the resumption (R414). -/
def Mod.noticeOf (m : Mod) (n st lanes : Nat) : Mod :=
  let l := m.linkOf m.phys n
  let pl := Payload.notice (BitVec.ofNat 24 l.1) (BitVec.ofNat 3 l.2) (BitVec.ofNat 3 st) lanes (BitVec.ofNat 64 m.time)
  let hdr := { m.header none 0x02 0xFFFFFF pl 0 0 with dst := 0xFFFFFF, src := BitVec.ofNat 24 m.phys }
  if m.stopped then { m with fab := { m.fab with deferred := m.fab.deferred ++ [{ hdr := hdr, payload := pl }] } }
  else
    let m := m.flood 0x02 pl
    { m with fab := { m.fab with loop := m.fab.loop ++ [{ hdr := hdr, payload := pl }] } }

/-- A link notice with the port's present state. -/
def Mod.notice (m : Mod) (n : Nat) : Mod :=
  m.noticeOf n (noticeState (m.get F.LNK_STAT_state n)) (laneCount (m.get F.LNK_STAT_lane_mask n))

/-- Discards what a port holds to send or has partly received, counts it, and clears its credits (R264). -/
def Mod.portClear (m : Mod) (n : Nat) : Mod :=
  let p := m.port n
  let lost := (p.waiting.filter (·.idx == 0)).length + p.replay.length
  (m.setPort n { p with waiting := [], replay := [], credits := [], rxHeld := [], rxReturn := [], nakWait := false,
                        nakCount := 0, fencing := false }).bump F.LNK_DROP_down n lost

/-- Takes port `n` to `DOWN` (5), `FENCED` (4) or `DISABLED` (0): traffic discarded, availability cleared. A fenced port keeps
carrying VC 0, with full credits (R247). The last peer that had not agreed may be the one that leaves (R254 step 7). -/
def Mod.portOff (m : Mod) (n st : Nat) : Mod :=
  let m := m.portClear n
  let m := if st = 4 then m.setPort n { m.port n with credits := fullCredits } else m
  let m := m.set F.LNK_STAT_state n st
  let m := if st = 4 then m else m.set F.LNK_STAT_lane_mask n 0
  let m := m.portAvail n
  let m := if st = 0 then m else m.summary F.FLT_SUMMARY_port_down n
  m.discCheck

/-- Takes port `n` out of service with a notice (R238, R264, R265). -/
def Mod.portLeave (m : Mod) (n st : Nat) : Mod := (m.portOff n st).notice n

/-- A port entering `DOWN` (PORT_DOWN). -/
def Mod.portDown (m : Mod) (n : Nat) : Mod := m.portLeave n 5

/-- Whether packets begun on VCs 1 to 7 still have flits to send (R265). -/
def Port.begun (p : Port) : Bool :=
  p.waiting.any fun f => f.vc != 0 && f.idx != 0 && !(p.waiting.any fun g => g.vc == f.vc && g.idx == 0 && g.pkt == f.pkt)

/-- A port being fenced enters `FENCED` once the packets it has begun are sent. -/
def Mod.fenceCheck (m : Mod) (n : Nat) : Mod :=
  let p := m.port n
  if p.fencing && !p.begun then m.portLeave n 4 else m

/-- A port reaching `ACTIVE` or `DEGRADED` with lanes `mask`: full credits (R247), and a notice. -/
def Mod.portServe (m : Mod) (n mask : Nat) : Mod :=
  let m := m.setPort n { m.port n with credits := fullCredits }
  let m := m.set F.LNK_STAT_lane_mask n mask
  let m := m.set F.LNK_STAT_state n (if laneCount mask = 8 then 2 else 3)
  (m.portAvail n).notice n

/-- Floods a notice for every port in service, then takes every port that is not disabled to `DOWN` (R461). -/
def Mod.portsDown (m : Mod) : Mod :=
  let live := (List.range 8).filter fun n => let s := m.get F.LNK_STAT_state n; s == 2 || s == 3 || s == 4
  let m := m.each live fun m n => m.noticeOf n 5 0
  m.each ((List.range 8).filter fun n => m.get F.LNK_STAT_state n != 0) fun m n => m.portOff n 5

/-! ### The failed state (MODULE_FAILED, R367) -/

/-- Floods a notice for each port, then takes every port to `DOWN` (R367 step 3). -/
def Mod.portsFail (m : Mod) : Mod :=
  let m := m.each (List.range 8) fun m n => m.noticeOf n 5 0
  m.each (List.range 8) fun m n => m.portOff n 5

/-- Stops every operation of every queue without signalling. -/
def Mod.stopAll (m : Mod) : Mod := m.each m.liveQueues Mod.stopOp

/-- The module enters the failed state. The dump it captures is begun first, since the reports that follow are of class 4. -/
def Mod.fail (m : Mod) (part : Nat) : Mod :=
  let m := (m.dumpAuto ST_MODULE_FAILED 1).log { st := ST_MODULE_FAILED, cls := .fatal, block := Blk.FLT, part := part }
  let m := m.withAlert fun m => m.set F.FLT_SUMMARY_module_failed 0 1
  let m := m.stopAll
  let m := m.portsFail
  let m := m.each (List.range 16) fun m p => m.partLost p 1
  m.set F.GEO_AVAIL_port_avail 0 0

/-! ### Partition reset (R364, R365) -/

/-- Whether the operation of queue `i` holds a share on partition `p`, or names a region on stack `p` (R202, R365). -/
def Mod.opUses (m : Mod) (i p : Nat) : Bool :=
  match (m.queue i).op with
  | some o => o.parts.testBit p
      || o.caps.any fun x => !Rgn.hostwin x.rgn && (m.stacksOf (Rgn.base x.rgn) (Rgn.size x.rgn)).contains p
  | none => false

/-- Ends every operation that uses partition `p` with `ST_PART_DOWN`, and every prefetch list that runs on it. -/
def Mod.endShares (m : Mod) (p : Nat) : Mod :=
  let m := m.each (m.liveQueues.filter fun i => m.opUses i p) fun m i => m.abortOp i ST_PART_DOWN
  m.each (m.ctxs.map (·.1)) fun m c =>
    m.each (((m.ctx c).pfRun.filter fun x => (m.qMask x.queue).testBit p).map (·.layer)) fun m l => m.pfFail c l ST_PART_DOWN

/-- A microcode load waiting for the partition's park ends (R385; log entry 21). -/
def Mod.parkEnd (m : Mod) (p : Nat) (st : Status) : Mod :=
  if (m.part p).park.isSome then
    let m := m.setPart p { m.part p with park := none }
    (m.set F.PART_UCODE_CMD_busy 0 0).set F.PART_UCODE_CMD_status 0 st
  else m

/-- The registers of the slice and the memory controller of partition `p` take their reset values (R7, Table 12.4). A scrub that a
thermal self-refresh pauses resumes where it stopped (R223). -/
def Mod.sideReset (m : Mod) (p cause : Nat) : Mod :=
  let pos := m.get F.MEM_SCRUB_STAT_position p
  let m := [R.SC_CFG, R.SC_ECC_CNT, R.SC_ATOM_CNT, R.MEM_ECC_CNT, R.MEM_ERR_ADDR, R.MEM_SCRUB_STAT, R.MEM_WASTE].foldl
    (fun m r => m.setRegAt (r.base + r.stride * p) r.reset r.reset) m
  if cause = 3 then m.set F.MEM_SCRUB_STAT_position p pos else m.setPart p { m.part p with scrubPos := 0 }

/-- What slice `p` holds before a reset or a self-refresh: written back, or lost with a stack that has failed (R210). -/
def Mod.sliceEmpty (m : Mod) (p : Nat) : Mod :=
  if m.on F.MEM_STACK_STAT_stack_fault p then m.sliceDrop p else m.sliceFlush p

/-- Begins the reset of partition `p` for the trigger `st`; `cause` is 1 fault, 2 host, 3 thermal. -/
def Mod.partResetNow (m : Mod) (p cause : Nat) (st : Status) : Mod :=
  let m := m.sliceEmpty p
  let m := m.partLost p 0
  let m := m.log { st := ST_PART_RESET, cls := .contained, block := Blk.PART, part := p, d0 := st }
  let m := m.summary F.FLT_SUMMARY_part_fault p
  let m := (m.bump F.FLT_PART_RESETS_total p 1).set F.FLT_PART_RESETS_last_status p st
  let m := m.endShares p
  let m := (m.parkEnd p ST_PART_DOWN).sideReset p cause
  let m := m.set F.PART_STAT_state p 5
  m.setPart p { m.part p with active := none, resetCause := cause, stopTime := m.time }

/-- Fault resets of partition `p` within the last 3,600 s. -/
def Mod.faultWindow (m : Mod) (p : Nat) : List Nat := (m.part p).faults.filter fun t => m.time < t + 3600 * 10 ^ 9

/-- Whether a fault reset of partition `p` now would be its third within 3,600 s. -/
def Mod.lastReset (m : Mod) (p : Nat) : Bool := decide (2 ≤ (m.faultWindow p).length)

/-- A fault reset (R364): the third within 3,600 s fails the module instead. A partition that is already in reset takes no
second one, nor does any partition of a module in the failed state. -/
def Mod.faultReset (m : Mod) (p : Nat) (st : Status) : Mod :=
  if m.failed || m.get F.PART_STAT_state p = 5 then m
  else
  let w := m.faultWindow p
  let m := m.setPart p { m.part p with faults := m.time :: w }
  if 2 ≤ w.length then m.fail p
  else (m.set F.FLT_PART_RESETS_window p (w.length + 1)).partResetNow p 1 st

/-! ### Stacks (STACK_FAULT, R222, R366) -/

/-- Whether some byte of a region range lies on stack `s`, by the byte. -/
def Mod.onStack (m : Mod) (pa n s : Nat) : Bool :=
  (List.range (ceilDiv (pa % 4096 + n) 4096)).any fun j => m.stackOf (pa / 4096 * 4096 + 4096 * j) == s

/-! ### The cast list (R333) -/

/-- Physical address of the cast list of context `c`. -/
def Mod.castListAt (m : Mod) (c : Nat) : Nat :=
  Rgn.base (m.region c (m.get F.CAST_LIST_region c)) + m.get F.CAST_LIST_off c * 128

/-- Changes every entry of the loaded list of context `c` by `f`, and writes the changed ones back (R333). -/
def Mod.castMap (m : Mod) (c : Nat) (f : CastEntry → CastEntry) : Mod :=
  let x := m.ctx c
  let l := x.castList.map f
  let m := m.setCtx c { x with castList := l }
  ((List.range l.length).zip (x.castList.zip l)).foldl (fun m e =>
    if e.2.1.raw = e.2.2.raw then m else m.wrInt (m.castListAt c + 32 * e.1) (leBytes 32 e.2.2.raw.toNat)) m

/-- Bytes of an extent (R336). -/
def mib : Nat := 2 ^ 20

/-- The planes of a tensor's buffer at region offset `off`: physical address and bytes. -/
def castPlanes (g : W256) (d : W512) (off : Nat) : List (Nat × Nat) :=
  (Rgn.base g + off, planeBytes (Ds.fmt d) (Ds.count d))
  :: if Ds.aux d = 0 then [] else [(Rgn.base g + off + Ds.auxOff d, auxBytes (Ds.aux d) (Ds.count d))]

/-- Physical addresses of the extents of planes. -/
def planeExts (l : List (Nat × Nat)) : List Nat :=
  l.flatMap fun p => (List.range (ceilDiv p.2 mib)).map fun x => p.1 + mib * x

/-- A cast-list entry of context `c` after the loss of stack `p` (R366): with an extent of either buffer there, it counts as not
held. -/
def Mod.castLost (m : Mod) (c p : Nat) (e : CastEntry) : CastEntry :=
  let d := m.desc (m.entryOf c (Ce.desc e))
  let g := m.region c (Ds.region d)
  let exts := planeExts (castPlanes g d (Ds.addrA d) ++ if Ds.ab d then castPlanes g d (Ds.addrB d) else [])
  if exts.any fun a => m.onStack a mib p then Ce.put (Ce.put e 128 64 (2 ^ 64 - 1)) 255 1 0 else e

/-- Declares a stack fault: the contents are lost, so cast entries with an extent there count as not held (R366). During a
global stop it is recorded and acted on at release (R414). -/
def Mod.stackFault (m : Mod) (p : Nat) : Mod :=
  if m.stopped then { m with stop := { m.stop with lost := insertNew p m.stop.lost } }
  else
  let m := m.set F.MEM_STACK_STAT_stack_fault p 1
  let m := m.log { st := ST_STACK_FAULT, cls := .contained, block := Blk.MEM, part := p }
  let m := m.each (m.ctxs.map (·.1)) fun m c => m.castMap c (m.castLost c p)
  m.faultReset p ST_STACK_FAULT

/-- More than `ue_limit` new poisoned words in one stack within 1 s (R222). -/
def Mod.ueCheck (m : Mod) (p : Nat) : Mod :=
  if m.get F.MEM_ECC_CFG_ue_limit < (m.part p).ueRecent.length && m.partUp p && !m.on F.MEM_STACK_STAT_stack_fault p then
    m.stackFault p
  else m

/-! ### Memory sides (R203) -/

/-- Whether a context in use has a valid region on a zone that uses stack `p`. -/
def Mod.sideUsed (m : Mod) (p : Nat) : Bool :=
  m.regions.any fun e => m.ctxState (e.1 / 1024) != 0 && Rgn.valid e.2 && !Rgn.hostwin e.2
    && (m.stacksOf (Rgn.base e.2) (Rgn.size e.2)).contains p

/-- Gates the memory side of partition `p`; its slice writes its lines back first. -/
def Mod.sideOff (m : Mod) (p : Nat) : Mod := (m.sliceFlush p).set F.MEM_STACK_STAT_gated p 1

/-- Gates the memory sides that no context in use needs. -/
def Mod.sidesGate (m : Mod) : Mod := m.each ((List.range 16).filter fun p => !m.sideUsed p && m.partUp p) Mod.sideOff

/-! ### Errors of memories (R218-R220, R362) -/

/-- A word of HBM with bit errors, met by a read: corrected or poisoned (ECC_CORRECTED, POISON_DETECTED). -/
def Mod.wordError (m : Mod) (src w b : Nat) : Mod :=
  let s := w / 2 ^ 33
  if b = 0 || m.wordPoisoned w then m
  else if b ≤ 2 then m.eccCorrected s
  else (m.poisonDetected w src).ueCheck s

/-- Whether slice `p` holds word `w` of its stack. -/
def Mod.cached (m : Mod) (w : Nat) : Bool := (m.line (w / 2 ^ 33) (w % 2 ^ 33 / 16)).valid.testBit (w % 16 / 4)

/-- A word of a slice with bit errors: counted in the slice's counters (R219, R220). -/
def Mod.sliceError (m : Mod) (src w b : Nat) : Mod :=
  let p := w / 2 ^ 33
  if b = 0 || !m.cached w || m.wordPoisoned w then m
  else if b ≤ 2 then m.bump F.SC_ECC_CNT_ce p 1
  else
    let m := (m.setPoison w true).bump F.SC_ECC_CNT_ue p 1
    let m := (m.set F.MEM_ERR_ADDR_local p ((w % 2 ^ 33) * 8)).set F.MEM_ERR_ADDR_source p src
    (m.set F.MEM_ERR_ADDR_valid p 1).log
      { st := ST_MEM_UNCORR, cls := .error, block := Blk.SC, part := p, d1 := (w % 2 ^ 33) * 8 }

/-- Register block of a table. -/
def tableBlk : Table → Nat
  | .desc => Blk.TDT
  | .region => Blk.CTX
  | .stream | .group => Blk.UPD
  | .watch => Blk.WATCH
  | .remap | .detour => Blk.RTE

/-- Entry `e` of a table reads as invalid (R362). -/
def Mod.tableLose (m : Mod) (t : Table) (e : Nat) : Mod :=
  match t with
  | .desc => { m with tdt := m.tdt.del e }
  | .region => { m with regions := m.regions.del e }
  | .stream => { m with streams := m.streams.del e, streamsLatch := m.streamsLatch.del e }
  | .group => { m with groupsPend := m.groupsPend.del e, groupsLatch := m.groupsLatch.del e }
  | .watch => { m with watch := m.watch.del e }
  | .remap => { m with fab := { m.fab with remap := m.fab.remap.del e } }
  | .detour => if 224 ≤ e then m.setAuto e 0 else { m with fab := { m.fab with detour := m.fab.detour.del e } }

/-- An error of a static RAM that a command meets before its work (R362): one wrong bit is corrected and counted where a counter is
named; more poison a flag, reset a partition, or cost one copy of a table entry, which another copy repairs. -/
def Mod.sramError (m : Mod) : MemErr → Mod
  | .table t e d b good =>
    if b = 0 then m
    else if b = 1 then m.cnt (624 + d.val) 1
    else
      let m := m.log { st := ST_SRAM_UNCORR, cls := .event, block := tableBlk t, d0 := e }
      if good then m else m.tableLose t e
  | .flag f d b =>
    if b = 0 then m
    else if b = 1 then m.cnt (624 + d.val) 1
    else { m with flagPois := Tab.set false m.flagPois f.val true }
  | .control p b => if b ≤ 1 || !m.partUp p then m else m.faultReset p ST_SRAM_UNCORR
  | _ => m

/-- Errors that a command meets in tables, flags and control memories, before it acts. -/
def Mod.sramErrors (m : Mod) (l : List MemErr) : Mod := l.foldl Mod.sramError m

/-- One error that the work of a command meets: of the operation of queue `q`, if it is one. `src` is the `source` code of its
reads of the stack. -/
def Mod.meetError (m : Mod) (q : Option Nat) (src : Nat) : MemErr → Mod
  | .word w b => m.wordError src w b
  | .slice w b => m.sliceError src w b
  | .writeBack w b => m.sliceError 3 w b
  | .scratch p b =>
    if b = 0 then m
    else if b = 1 then m.cnt (8 * p.val + 6) 1
    else match q with
      | some i => m.abortOp i ST_SRAM_UNCORR
      | none => m
  | _ => m

/-- The errors that a command's work meets. -/
def Mod.meetErrors (m : Mod) (q : Option Nat) (src : Nat) (l : List MemErr) : Mod := l.foldl (fun m e => m.meetError q src e) m

end Sys2Proof.Machine
end

