-- ==== Sys2Proof/Machine/Func.lean ====
section
/-! DEFINITION. The table-based functions of Table 6.5 (R177): for each operand, the FP32 values that lie within the error which the
table allows around the exact function. Reals are integers in units of 2^-256, far below every such error (log entry 12). -/

namespace Sys2Proof.Machine

/-! ### The exact functions -/

def fxOne : Int := 2 ^ 256
def fxMul (a b : Int) : Int := a * b / fxOne
def fxDiv (a b : Int) : Int := a * fxOne / b
/-- Square root of a nonnegative real. -/
def fxSqrt (a : Int) : Int := Nat.sqrt (a * fxOne).toNat

/-- The sum of the first `n` terms of a series: the first term, the factor from one to the next, the divisor under each. -/
def fxSeries (n : Nat) (first : Int) (next : Nat → Int → Int) (under : Nat → Int) : Int :=
  ((List.range n).foldl (fun (x : Int × Int) k => (next k x.1, x.2 + x.1 / under k)) (first, 0)).2

/-- Σ t u^j / (2j + 1): the inverse hyperbolic tangent of `t` where `u` is its square, the inverse tangent where `u` is the
square's negative. -/
def fxOdd (t u : Int) : Int := fxSeries 120 t (fun _ x => fxMul x u) fun k => 2 * k + 1

def fxLn2 : Int := 2 * fxOdd (fxOne / 3) (fxOne / 9)
def fxPi : Int := 16 * fxOdd (fxOne / 5) (-fxOne / 25) - 4 * fxOdd (fxOne / 239) (-fxOne / 57121)

/-- e^x, of operands beyond ±300 as at ±300: nothing of FP32's range lies there. -/
def fxExp (x : Int) : Int :=
  let x := max (-300 * fxOne) (min (300 * fxOne) x)
  let k := x / fxLn2
  let r := x - k * fxLn2
  let e := fxSeries 64 fxOne (fun k t => fxMul t r / (k + 1)) fun _ => 1
  if 0 ≤ k then e * 2 ^ k.toNat else e / 2 ^ (-k).toNat

/-- ln x of a positive real. -/
def fxLn (x : Int) : Int :=
  let k := Nat.log2 x.toNat
  let y := fxOne * x / 2 ^ k
  let t := fxDiv (y - fxOne) (y + fxOne)
  (k - 256) * fxLn2 + 2 * fxOdd t (fxMul t t)

/-- The error function, of operands up to ±9. -/
def fxErf (z : Int) : Int :=
  let s := fxMul z z
  fxDiv (2 * fxSeries 300 z (fun k t => -fxMul t s / (k + 1)) fun k => 2 * k + 1) (fxSqrt fxPi)

/-- 1 / (1 + e^-x), which neither 0 nor 1 is. -/
def fxSigmoid (x : Int) : Int := max 1 (min (fxOne - 1) (fxDiv fxOne (fxOne + fxExp (-x))))

/-- The exact function of a table code. The two `GELU` are x Φ(x) by the error function, and x (1 + tanh u) / 2 with
u = √(2/π) (x + 0.044715 x³): the spec gives their names only (PRESUMED, log entry 12). -/
def fxTable (code : Nat) (x : Int) : Int :=
  match code with
  | 0x0C => fxSqrt (fxDiv fxOne x)
  | 0x21 => fxExp x
  | 0x22 => fxExp (fxMul x fxLn2)
  | 0x23 => fxLn x
  | 0x24 => fxSigmoid x
  | 0x25 => 2 * fxSigmoid (2 * x) - fxOne
  | 0x26 =>
    let u := fxMul (fxSqrt (fxDiv (2 * fxOne) fxPi)) (x + fxMul (fxMul x x) x * 44715 / 1000000)
    fxMul x (fxSigmoid (2 * u))
  | 0x27 =>
    if 12 * fxOne ≤ x.natAbs then max (x - 1) 0 else fxMul x (fxOne + fxErf (fxDiv x (fxSqrt (2 * fxOne)))) / 2
  | 0x28 => fxMul x (fxSigmoid x)
  | _ => if 200 * fxOne ≤ x then x else fxLn (fxOne + fxExp x)

/-! ### The FP32 values near a real -/

/-- An FP32 ulp at a real of magnitude `n`. -/
def fxUlp (n : Nat) : Nat := 2 ^ max (Nat.log2 n - 23) 107

/-- The FP32 pattern, sign aside, at magnitude `n` or next below it, or next above it. An infinity stands at 2^128. -/
def fxPat (above : Bool) (n : Nat) : Nat :=
  let q := fxUlp n
  min 0x7F800000 ((if above then ceilDiv n q else n / q) + (Nat.log2 q - 107) * 2 ^ 23)

/-- FP32 patterns in the order of their values: +0 is 0 and -0 is -1. -/
def keyAtMost (n : Int) : Int := if 0 ≤ n then fxPat false n.toNat else -1 - (fxPat true (-n).toNat : Int)
def keyAtLeast (n : Int) : Int := if 0 < n then fxPat true n.toNat else -1 - (fxPat false (-n).toNat : Int)
def keyPat (k : Int) : Nat := if 0 ≤ k then k.toNat else 2 ^ 31 + (-1 - k).toNat

/-- The error that Table 6.5 allows a code, in ulp and as the exponent of an absolute bound (0: none). -/
def tableErr (code : Nat) : Nat × Nat :=
  match code with
  | 0x0C | 0x21 | 0x22 => (1, 0)
  | 0x23 => (1, 24)
  | 0x24 | 0x25 => (2, 24)
  | _ => (4, 22)

/-- The first and last FP32 value, by key, that a table may hold for real `x`: those within the larger of the two bounds around the
exact function, and beyond FP32's range an infinity. What the 2^-256 lose is made up for by a bound 2^-64 wider. -/
def tableKeys (code : Nat) (x : Int) : Int × Int :=
  let e := fxTable code x
  if 2 ^ 384 ≤ e then (0x7F800000, 0x7F800000)
  else
    let (u, a) := tableErr code
    let b : Nat := max (u * fxUlp e.natAbs) (if a = 0 then 0 else 2 ^ (256 - a))
    let w : Int := b + b / 2 ^ 64
    (keyAtLeast (e - w), keyAtMost (e + w))

/-- What the table of a code holds for an operand of pattern `x` and value `v`: one of those values, the same on every module, which
of them is free. -/
def tableVal (code x : Nat) (v : Int) : Nat :=
  let w := tableKeys code v
  keyPat (w.1 + ((Config.tableFn code (BitVec.ofNat 32 x)).toNat : Int) % (w.2 - w.1 + 1))

end Sys2Proof.Machine
end

