-- ==== Sys2Proof/Machine/Num.lean ====
section
/-! DEFINITION. Exact numbers, formats and roundings (R33-R63): every value is a dyadic rational until it is rounded once. -/

namespace Sys2Proof.Machine

/-- A value: a NaN with its sign, marked `made` where it was produced from operands that were not NaN (R48, R64); an
infinity; a finite number ±`m` × 2^`e`; or a value that a bad chunk scale leaves without meaning (R42). A zero to which a
rounding took a nonzero value has `e` = 1, every other zero an `e` of 0 or less: that is how it is known as underflow (R45). -/
inductive Num where
  | nan (s made : Bool)
  | inf (s : Bool)
  | fin (s : Bool) (m : Nat) (e : Int)
  | bad
deriving DecidableEq, Repr

def Num.zero : Num := .fin false 0 0
def Num.one : Num := .fin false 1 0

/-- The integer `z`. -/
def Num.ofInt (z : Int) : Num := .fin (decide (z < 0)) z.natAbs 0

def Num.isZero : Num → Bool
  | .fin _ m _ => m == 0
  | _ => false
def Num.isFin : Num → Bool
  | .fin _ _ _ => true
  | _ => false
def Num.isNan : Num → Bool
  | .nan _ _ => true
  | _ => false
/-- A nonzero finite value. -/
def Num.isNZ (x : Num) : Bool := x.isFin && !x.isZero
def Num.isMade : Num → Bool
  | .nan _ b => b
  | _ => false

/-- A zero to which a rounding took a nonzero value. -/
def Num.flushed : Num → Bool
  | .fin _ m e => m == 0 && e == 1
  | _ => false
/-- A zero of a sign, flushed when `b`. -/
def Num.zeroOf (s b : Bool) : Num := .fin s 0 (if b then 1 else 0)

/-- floor(log2) of `m` × 2^`e`, for nonzero `m`. -/
def ilog (m : Nat) (e : Int) : Int := (Nat.log2 m : Int) + e

/-- `m` × 2^`e` in units of 2^`q`, rounded to nearest; `tie` is what an exact tie does: 0 to even, 1 away from zero. -/
def roundAt (m : Nat) (e q : Int) (tie : Nat := 0) : Nat :=
  if q ≤ e then m <<< (e - q).toNat
  else
    let d := (q - e).toNat
    let u := m >>> d
    let r := m % 2 ^ d
    let h := 2 ^ (d - 1)
    if h < r || (r == h && (u % 2 == 1 || tie == 1)) then u + 1 else u

/-- Mantissa bits, bias and largest finite code of a float format (Tables 2.2, 2.4); G16 elements are binary16. -/
def ffMant : Nat → Nat
  | 0 => 1 | 1 => 3 | 2 => 2 | 3 => 7 | 5 => 23 | _ => 10
def ffBias : Nat → Nat
  | 0 => 1 | 1 => 7 | 2 => 15 | 3 => 127 | 5 => 127 | _ => 15
def ffMax : Nat → Nat
  | 0 => 0x7 | 1 => 0x7E | 2 => 0x7B | 3 => 0x7F7F | 5 => 0x7F7FFFFF | _ => 0x7BFF
/-- Canonical NaN of a format, sign 0 (Table 2.4). -/
def ffNan : Nat → Nat
  | 1 => 0x7F | 2 => 0x7E | 3 => 0x7FC0 | 5 => 0x7FC00000 | 0 => 0 | _ => 0x7E00
/-- Smallest exponent of a unit in the last place. -/
def ffMinUlp (f : Nat) : Int := 1 - (ffBias f : Int) - (ffMant f : Int)

/-- Value of a float code (R33, Table 2.4). -/
def decodeF (f x : Nat) : Num :=
  let w := fmtWidth f
  let s := x.testBit (w - 1)
  let c := x % 2 ^ (w - 1)
  let mb := ffMant f
  if c ≤ ffMax f then
    let ef := c / 2 ^ mb
    let mf := c % 2 ^ mb
    if ef = 0 then .fin s mf (ffMinUlp f) else .fin s (mf + 2 ^ mb) (ffMinUlp f + (ef : Int) - 1)
  else if c = ffMax f + 1 && f != 1 then .inf s
  else .nan s false

/-- Magnitude code and unit exponent of `m` × 2^`e` rounded RNE with an unbounded exponent (R50); a code above `ffMax`
has overflowed. -/
def roundF (f m : Nat) (e : Int) (tie : Nat := 0) : Nat × Nat × Int :=
  if m = 0 then (0, 0, 0)
  else
    let q := max (ilog m e - (ffMant f : Int)) (ffMinUlp f)
    let u := roundAt m e q tie
    ((q - ffMinUlp f).toNat * 2 ^ ffMant f + u, u, q)

/-- Events of one conversion (R64): saturation, non-finite, underflow, and a finite overflow in either mode. -/
structure Ev where
  sat : Bool := false
  nf : Bool := false
  uf : Bool := false
  ov : Bool := false
deriving DecidableEq, Repr

/-- Sign bit of a format. -/
def signBit (f : Nat) (s : Bool) : Nat := if s then 2 ^ (fmtWidth f - 1) else 0

/-- Conversion of a value into a float format (R48, R50, R51); `ns` is `NONSAT`. -/
def encodeF (f : Nat) (ns : Bool) : Num → Nat × Ev
  | .bad => (0, {})
  | .nan s made =>
    if f = 0 then (0, { nf := true }) else (ffNan f + signBit f s, { nf := made })
  | .inf s =>
    if f = 0 || !ns then (ffMax f + signBit f s, { sat := true })
    else if f = 1 then (ffNan f + signBit f s, {})
    else (ffMax f + 1 + signBit f s, {})
  | .fin s m e =>
    let c := (roundF f m e).1
    if ffMax f < c then
      if f = 0 || !ns then (ffMax f + signBit f s, { sat := true, ov := true })
      else if f = 1 then (ffNan f + signBit f s, { nf := true, ov := true })
      else (ffMax f + 1 + signBit f s, { nf := f != 5, ov := true })
    else (c + signBit f s, { uf := c == 0 && m != 0 })

/-- RNE32: rounding to FP32 under `NONSAT` (R44, R52). -/
def Num.r32 (x : Num) (tie : Nat := 0) : Num :=
  match x with
  | .fin s m e =>
    if m = 0 then x
    else
      let (c, u, q) := roundF 5 m e tie
      if ffMax 5 < c then .inf s else if u = 0 then .zeroOf s true else .fin s u q
  | y => y

/-- Rounding to BF16 under `NONSAT`. -/
def Num.rbf (x : Num) : Num :=
  match x with
  | .fin s m e =>
    if m = 0 then x
    else
      let (c, u, q) := roundF 3 m e
      if ffMax 3 < c then .inf s else if u = 0 then .zeroOf s true else .fin s u q
  | y => y

/-- FP32 pattern of a value already rounded to FP32; a value without meaning gives the canonical NaN. -/
def Num.pat32 : Num → Nat
  | .bad => ffNan 5
  | x => (encodeF 5 true x).1

/-- The value of an FP32 pattern. -/
def num32 (x : Nat) : Num := decodeF 5 x

/-! ### Exact arithmetic (R44-R48) -/

/-- The NaN of a result that has the operands `a`, `b`: sign 0. -/
def nanOf (a b : Num) : Num := .nan false (a.isMade || b.isMade)

def Num.neg : Num → Num
  | .nan s b => .nan (!s) b
  | .inf s => .inf (!s)
  | .fin s m e => .fin (!s) m e
  | .bad => .bad
def Num.abs : Num → Num
  | .nan _ b => .nan false b
  | .inf _ => .inf false
  | .fin _ m e => .fin false m e
  | .bad => .bad

/-- A finite value as a signed number of units of 2^`q`, `q` not above its exponent. -/
def finInt (s : Bool) (m : Nat) (e q : Int) : Int :=
  let u : Int := (m <<< (e - q).toNat : Nat)
  if s then -u else u

/-- Exact sum (R46). -/
def Num.add : Num → Num → Num
  | .bad, _ => .bad
  | _, .bad => .bad
  | .nan s b, y => nanOf (.nan s b) y
  | x, .nan s b => nanOf x (.nan s b)
  | .inf s, .inf t => if s == t then .inf s else .nan false true
  | .inf s, _ => .inf s
  | _, .inf t => .inf t
  | .fin s m e, .fin t n d =>
    if m = 0 && n = 0 then .zeroOf (s && t) (e == 1 || d == 1)
    else
      let q := min e d
      let z := finInt s m e q + finInt t n d q
      if z = 0 then .fin false 0 0 else .fin (decide (z < 0)) z.natAbs q

/-- Exact product. -/
def Num.mul : Num → Num → Num
  | .bad, _ => .bad
  | _, .bad => .bad
  | .nan s b, y => nanOf (.nan s b) y
  | x, .nan s b => nanOf x (.nan s b)
  | .inf s, .inf t => .inf (s != t)
  | .inf s, .fin t n _ => if n = 0 then .nan false true else .inf (s != t)
  | .fin s m _, .inf t => if m = 0 then .nan false true else .inf (s != t)
  | .fin s m e, .fin t n d =>
    if m * n = 0 then .zeroOf (s != t) ((m == 0 && e == 1) || (n == 0 && d == 1)) else .fin (s != t) (m * n) (e + d)

/-- A quotient of naturals with enough bits that one rounding to 24 bits or fewer is right, its last bit sticky. -/
def quot (m n : Nat) (e : Int) : Nat × Int :=
  let k := 80 + Nat.log2 n
  let a := m <<< k
  (2 * (a / n) + (if a % n = 0 then 0 else 1), e - (k : Int) - 1)

/-- RNE32 of the quotient. -/
def Num.div : Num → Num → Num
  | .bad, _ => .bad
  | _, .bad => .bad
  | .nan s b, y => nanOf (.nan s b) y
  | x, .nan s b => nanOf x (.nan s b)
  | .inf _, .inf _ => .nan false true
  | .inf s, .fin t _ _ => .inf (s != t)
  | .fin s _ _, .inf t => .fin (s != t) 0 0
  | .fin s m e, .fin t n d =>
    if n = 0 then (if m = 0 then .nan false true else .inf (s != t))
    else if m = 0 then .zeroOf (s != t) (e == 1)
    else let (u, q) := quot m n (e - d); (Num.fin (s != t) u q).r32

/-- RNE32 of the square root. -/
def Num.sqrt : Num → Num
  | .bad => .bad
  | .nan _ b => .nan false b
  | .inf s => if s then .nan false true else .inf false
  | .fin s m e =>
    if m = 0 then .fin s 0 e
    else if s then .nan false true
    else
      -- an even exponent, 2 × 40 further bits, the last bit sticky
      let k : Nat := if (e - 80) % 2 = 0 then 80 else 81
      let a := m <<< k
      let r := Nat.sqrt a
      (Num.fin false (2 * r + (if r * r = a then 0 else 1)) ((e - (k : Int)) / 2 - 1)).r32

/-- RNE32 sum and product. -/
def Num.addR (x y : Num) : Num := (x.add y).r32
def Num.mulR (x y : Num) : Num := (x.mul y).r32

/-- RNE32 fused multiply-add, one operation on three operands: a NaN among them makes its NaN no new one (R65). -/
def Num.fmaR (x y z : Num) : Num :=
  let r := ((x.mul y).add z).r32
  if r.isNan && (x.isNan || y.isNan || z.isNan) then .nan false (x.isMade || y.isMade || z.isMade) else r

/-! ### Comparison (R47) -/

/-- x < y, for values that are not NaN; −0 orders below +0 when `zeros` is set. -/
def Num.lt (zeros : Bool) : Num → Num → Bool
  | .inf s, .inf t => s && !t
  | .inf s, .fin _ _ _ => s
  | .fin _ _ _, .inf t => !t
  | .fin s m e, .fin t n d =>
    if m = 0 && n = 0 then zeros && s && !t
    else decide (finInt s m e (min e d) < finInt t n d (min e d))
  | _, _ => false

/-- Equality of values; zeros are equal, a NaN equals nothing. -/
def Num.same (x y : Num) : Bool :=
  match x, y with
  | .nan _ _, _ => false
  | _, .nan _ _ => false
  | .bad, _ => false
  | _, .bad => false
  | x, y => !x.lt false y && !y.lt false x

/-- `maximum` and `minimum` (R47). -/
def Num.max (x y : Num) : Num :=
  if x = .bad || y = .bad then .bad else if x.isNan || y.isNan then nanOf x y else if x.lt true y then y else x
def Num.min (x y : Num) : Num :=
  if x = .bad || y = .bad then .bad else if x.isNan || y.isNan then nanOf x y else if y.lt true x then y else x

/-! ### Integers (R36, R54, R55, R63) -/

def intLo (f : Nat) : Int := -(2 ^ (fmtWidth f - 1) : Nat)
def intHi (f : Nat) : Int := (2 ^ (fmtWidth f - 1) : Nat) - 1

/-- Saturation of an integer into a format, and whether it saturated. -/
def satInt (f : Nat) (z : Int) : Nat × Bool :=
  if intHi f < z then (unsigned (fmtWidth f) (intHi f), true)
  else if z < intLo f then (unsigned (fmtWidth f) (intLo f), true)
  else (unsigned (fmtWidth f) z, false)

/-- The nearest integer of a finite value, ties to even. -/
def rneInt (s : Bool) (m : Nat) (e : Int) : Int := let u : Int := (roundAt m e 0 : Nat); if s then -u else u

/-- Conversion into an integer format with zero point `z` (R54, R61). -/
def encodeI (f : Nat) (z : Int) : Num → Nat × Ev
  | .bad => (0, {})
  | .nan _ _ => ((satInt f z).1, { nf := true, sat := true })
  | .inf s => (unsigned (fmtWidth f) (if s then intLo f else intHi f), { sat := true })
  | .fin s m e =>
    let u := rneInt s m e
    let (c, b) := satInt f (u + z)
    (c, { sat := b, uf := u == 0 && m != 0 })

/-- R63: rescale of an exact accumulator. A nonzero product that the shift rounds to zero is counted as underflow, as R45 says
of every rounding and `encodeI` does for a float source (DEDUCED, log entry 19: R63 itself names only the saturations). -/
def rescale (acc mult : Int) (n : Nat) (zo : Int) (f : Nat) : Nat × Ev :=
  let t := acc * mult
  let u : Int :=
    if n = 0 then t
    else
      let q := t / (2 ^ n : Nat)
      let r := t % (2 ^ n : Nat)
      let h : Int := (2 ^ (n - 1) : Nat)
      if h < r || (r == h && q % 2 != 0) then q + 1 else q
  let (c, b) := satInt f (u + zo)
  (c, { sat := b, uf := u == 0 && t != 0 })

/-! ### Function codes (Table 6.5) -/

/-- A value of the table of `code` for operand `x`, of exact value `v`; a zero that stands for a nonzero result counts as one
rounded to (R45). -/
def tableAt (code : Nat) (x : Num) (v : Int) : Num :=
  let exact0 := if code = 0x23 then v == fxOne else decide (0x25 ≤ code) && decide (code ≤ 0x28) && v == 0
  let r := num32 (tableVal code x.pat32 v)
  match r with
  | .fin s 0 _ => .zeroOf s !exact0
  | _ => r

/-- A table function: special values as R177 states; of any other operand a value within the error of Table 6.5. At an infinity a
function stands as at a huge operand, but the two `GELU` and `SILU` at −∞, where they are −∞ × 0, may have any value (DESIGN
CHOICE, log entry 12). -/
def tableNum (code : Nat) (x : Num) : Num :=
  match x with
  | .bad => .bad
  | .nan _ b => .nan false b
  | .inf s =>
    if code = 0x21 || code = 0x22 then (if s then .zero else .inf false)
    else if code = 0x23 then (if s then .nan false true else .inf false)
    else if code = 0x0C then (if s then .nan false true else .zero)
    else if s && decide (0x26 ≤ code) && decide (code ≤ 0x28) then
      num32 (Config.tableFn code (BitVec.ofNat 32 x.pat32)).toNat
    else tableAt code x (if s then -2 ^ 400 else 2 ^ 400)
  | .fin s m e =>
    if code = 0x23 && m = 0 then .inf true
    else if code = 0x0C && m = 0 then .inf s
    else if (code = 0x23 || code = 0x0C) && s then .nan false true
    else
      let n : Int := if -256 ≤ e then (m * 2 ^ (e + 256).toNat : Nat) else (m / 2 ^ (-e - 256).toNat : Nat)
      tableAt code x (if s then -n else n)

/-- `EXP` and `LOG`. -/
def Num.exp (x : Num) : Num := tableNum 0x21 x
def Num.log (x : Num) : Num := tableNum 0x23 x

/-- An activation (codes 0x20-0x29). -/
def actFn (code : Nat) (x : Num) : Num := if code = 0x20 then x.max .zero else tableNum code x

/-- A function code on its inputs and the record's constants (codes 0x00-0x12, 0x20-0x29). `SELECT` (0x10) and 0x00 hand an
operand on: a NaN that they hand on keeps its sign, which R48 settles for neither (DESIGN CHOICE, log entry 19). -/
def vecFn (code : Nat) (x y z c c2 : Num) : Num :=
  match code with
  | 0x00 => x
  | 0x01 => x.addR y
  | 0x02 => x.addR y.neg
  | 0x03 => x.mulR y
  | 0x04 => x.div y
  | 0x05 => x.fmaR y z
  | 0x06 => x.max y
  | 0x07 => x.min y
  | 0x08 => x.abs
  | 0x09 => x.neg
  | 0x0A => x.sqrt
  | 0x0B => Num.one.div x
  | 0x0C => tableNum 0x0C x
  | 0x0D => x.addR c
  | 0x0E => x.mulR c
  | 0x0F => (x.max c).min c2
  | 0x10 => if x = .bad || y = .bad || z = .bad then .bad else if z.isZero then y else x
  | 0x11 => if x = .bad || y = .bad then .bad else if y.lt false x then .one else .zero
  | 0x12 => if x = .bad || y = .bad then .bad else if x.same y then .one else .zero
  | k => actFn k x

/-! ### The array's column sum (R74) -/

/-- One FP32 value of a group of exact products. -/
def groupSum (ps : List Num) : Num :=
  if ps.any (· = .bad) then .bad
  else if ps.any Num.isNan then .nan false (ps.any Num.isMade)
  else if ps.contains (.inf false) && ps.contains (.inf true) then .nan false true
  else if ps.contains (.inf false) then .inf false
  else if ps.contains (.inf true) then .inf true
  else if ps.all Num.isZero then
    .zeroOf (ps != [] && ps.all fun p => match p with | .fin s _ _ => s | _ => false) (ps.any Num.flushed)
  else
    let logs := ps.filterMap fun p => match p with | .fin _ m e => if m = 0 then none else some (ilog m e) | _ => none
    let l : Int := logs.foldl max (logs.headD 0) - 40
    let unit (m : Nat) (e : Int) : Nat := if l ≤ e then m <<< (e - l).toNat else m >>> (l - e).toNat
    let t : Int := ps.foldl (fun t p => match p with
      | .fin s m e => let u : Int := (unit m e : Nat); if s then t - u else t + u
      | _ => t) 0
    let sticky := ps.any fun p => match p with
      | .fin _ m e => decide (e < l) && m % 2 ^ (l - e).toNat != 0
      | _ => false
    if t = 0 then .zero else (Num.fin (decide (t < 0)) t.natAbs l).r32 (if sticky then 1 else 0)

/-- The lists of `g` consecutive members. -/
def chunksOf {α : Type} (g : Nat) : Nat → List α → List (List α)
  | 0, _ => []
  | k + 1, l => if l.isEmpty then [] else l.take g :: chunksOf g k (l.drop g)

/-- A reduction of exact products: groups of `g`, split into 2^`sp` parts (R76, R77). -/
def reduceSum (g sp : Nat) (ps : List Num) : Num :=
  let gs := (chunksOf g (ceilDiv ps.length g) ps).map groupSum
  let parts := (chunksOf (ceilDiv gs.length (2 ^ sp)) (2 ^ sp) gs).map fun p => p.foldl Num.addR .zero
  match parts with
  | [] => .zero
  | a :: t => t.foldl Num.addR a

/-! ### Vector sums (R183) -/

/-- Pairwise tree of six levels over 64 lanes. -/
def pairUp (f : Num → Num → Num) : List Num → List Num
  | x :: y :: t => f x y :: pairUp f t
  | l => l

/-- Lane `j` of 64: its values in ascending order from `start`. -/
def laneOf (f : Num → Num → Num) (start : Num) (l : List Num) (j : Nat) : Num :=
  (((List.range l.length).zip l).filter fun x => x.1 % 64 == j).foldl (fun a x => f a x.2) start

/-- A vector reduction over 64 lanes and the tree (R183). -/
def vecReduce (f : Num → Num → Num) (start : Num) (l : List Num) : Num :=
  let lanes := (List.range 64).map (laneOf f start l)
  let p := pairUp f (pairUp f (pairUp f (pairUp f (pairUp f (pairUp f lanes)))))
  p.headD start

def vecSum (l : List Num) : Num := vecReduce Num.addR .zero l
def vecMax (l : List Num) : Num := vecReduce Num.max (.inf true) l
def vecMin (l : List Num) : Num := vecReduce Num.min (.inf false) l

end Sys2Proof.Machine
end

