-- ==== Sys2Proof/Machine/Tensor.lean ====
section
/-! DEFINITION. Elements of tensors: packing (R30, R31), real values (R37, R38, R58, R61), the store step (R60), G16 chunks
(R40, R41), and what an observed conversion counts (R64, R104-R106). -/

namespace Sys2Proof.Machine

/-! ### Reading -/

/-- Address of the captured current buffer: physical, or of the host behind a window (R137). -/
def Cap.base (x : Cap) : Nat := (if Rgn.hostwin x.rgn then Rgn.hostAddr x.rgn else Rgn.base x.rgn) + Ds.curOff x.desc
/-- Whether the tensor lies in a host window. -/
def Cap.host (x : Cap) : Bool := Rgn.hostwin x.rgn
/-- Number of elements. -/
def Cap.count (x : Cap) : Nat := Ds.count x.desc
def Cap.fmt (x : Cap) : Nat := Ds.fmt x.desc
/-- The captured scale. -/
def Cap.scale (x : Cap) : Num := num32 (Ds.scale x.desc)

/-- How an operation reads bytes: module memory, or the data that have arrived from the host. -/
abbrev Reader := Nat → Byte

/-- `n` bytes as a little-endian number. -/
def Reader.nat (rd : Reader) (a n : Nat) : Nat := leNat ((List.range n).map fun j => rd (a + j))

/-- Code of element `i` of a plane of format `f` at address `a` (R31). -/
def Reader.codeAt (rd : Reader) (a f i : Nat) : Nat :=
  if fmtWidth f = 4 then bits (rd (a + i / 2)).toNat (4 * (i % 2)) 4
  else rd.nat (a + i * (fmtWidth f / 8)) (fmtWidth f / 8)

/-- Code of element `i` of a captured tensor. -/
def Reader.code (rd : Reader) (x : Cap) (i : Nat) : Nat := rd.codeAt x.base x.fmt i

/-- Scale word of G16 chunk `c`. -/
def Reader.chunkScale (rd : Reader) (x : Cap) (c : Nat) : Nat := rd.nat (x.base + Ds.auxOff x.desc + 4 * c) 4

/-- Codebook entry `k` of a CODE4 tensor (Table 5.3). -/
def Reader.codebook (rd : Reader) (x : Cap) (k : Nat) : Num := decodeF BF16 (rd.nat (x.base + Ds.auxOff x.desc + 2 * k) 2)

/-- The value of a code without scale. -/
def Reader.plain (rd : Reader) (x : Cap) (c : Nat) : Num :=
  if fmtInt x.fmt then .ofInt (signed (fmtWidth x.fmt) c)
  else if x.fmt = CODE4 then rd.codebook x c
  else decodeF x.fmt c

/-- Multiplication by a scale; a NaN that a conversion passes on keeps its sign (R48). -/
def scaleBy (v s : Num) : Num :=
  match v with
  | .nan t b => .nan t b
  | v => v.mulR s

/-- Real value of element `i` (R37, R38, R58, R61); an element of a G16 chunk with a bad scale has none (R42). -/
def Reader.real (rd : Reader) (x : Cap) (i : Nat) : Num :=
  if fmtInt x.fmt then ((Num.ofInt (signed (fmtWidth x.fmt) (rd.code x i) - Ds.zeroPt x.desc)).mul x.scale).r32
  else if x.fmt = G16 then
    let s := rd.chunkScale x (i / 32768)
    if posNormal s then scaleBy (decodeF G16 (rd.code x i)) (num32 s) else .bad
  else scaleBy (rd.plain x (rd.code x i)) x.scale

/-- Module memory as an operation reads it. -/
def Mod.code (m : Mod) (x : Cap) (i : Nat) : Nat := Reader.code m.rdByte x i
def Mod.plain (m : Mod) (x : Cap) (c : Nat) : Num := Reader.plain m.rdByte x c
def Mod.real (m : Mod) (x : Cap) (i : Nat) : Num := Reader.real m.rdByte x i

/-- Whether a word of either plane of the captured buffer is poisoned; a G16 scale plane and a codebook are read with the
data. -/
def Mod.poisonedCap (m : Mod) (x : Cap) : Bool :=
  !x.host && (m.poisonedIn x.base (planeBytes x.fmt x.count)
    || m.poisonedIn (x.base + Ds.auxOff x.desc) (auxBytes (Ds.aux x.desc) x.count))

/-- An access that reads both planes of a captured buffer, in the mode of its region (R204). -/
def Mod.readCap (m : Mod) (x : Cap) : Mod :=
  if x.host then m
  else (m.reach (Rgn.fine x.rgn) .rd x.base (planeBytes x.fmt x.count)).reach (Rgn.fine x.rgn) .rd
    (x.base + Ds.auxOff x.desc) (auxBytes (Ds.aux x.desc) x.count)

/-! ### Observations (R104-R106) -/

/-- Target ceilings (Table 4.6). -/
def ftOf : Nat → Nat
  | 0 => 6 | 1 => 448 | 2 => 57344 | 6 => 8 | 7 => 128 | 8 => 2147483648 | _ => 32768

/-- Histogram bin of a code-domain value (R106). -/
def histBin (f : Nat) : Num → Nat
  | .fin _ m e =>
    ((List.range 31).filter fun (k : Nat) => !(Num.fin false m e).lt false (.fin false (ftOf f) ((k : Int) - 30))).length
  | _ => 31

/-- Adds 1 at place `k`. -/
def incAt (k : Nat) (l : List Nat) : List Nat := l.set k (l.getD k 0 + 1)

/-- The observation of a value `y` whose code-domain value is `v` in format `f`. -/
def Stat.observe (s : Stat) (f : Nat) (y v : Num) : Stat :=
  { s with
    amax := if y.isFin then ((num32 s.amax).max y.abs).pat32 else s.amax, nVal := s.nVal + 1,
    nNz := s.nNz + b2n y.isNZ, hist := if y.isNZ then incAt (histBin f v) s.hist else s.hist }

/-- The counted events of one conversion. -/
def Stat.events (s : Stat) (e : Ev) : Stat :=
  { s with nSat := s.nSat + b2n e.sat, nUf := s.nUf + b2n e.uf, nNf := s.nNf + b2n e.nf, nOv := s.nOv + b2n e.ov }

/-! ### The store step (R60, R61) -/

/-- Format, scale pattern, zero point and mode that an output is written in. -/
structure Target where
  fmt : Nat
  scale : Nat
  zp : Int := 0
  ns : Bool := false
deriving DecidableEq, Repr

/-- The code-domain value of `y` (R60, R104). -/
def Target.codeDomain (t : Target) (y : Num) : Num :=
  if t.fmt = FP32 || t.fmt = G16 then y else scaleBy y (Num.one.div (num32 t.scale))

/-- The events of a conversion of `y` whose value after the division by the scale is `v`: a nonzero value that the division
or the conversion takes to zero has underflowed, and a finite one that the division takes to infinity has overflowed in a
float format `f` (DESIGN CHOICE, log entry 19: R50 and R64 speak of the conversion of `v` alone). -/
def Ev.ofStep (f : Nat) (ns : Bool) (y v : Num) (e : Ev) : Ev :=
  let lost := y.isFin && !v.isFin && !v.isNan && !fmtInt f
  { e with uf := e.uf || v.flushed || (y.isNZ && v.isZero), ov := e.ov || lost, nf := e.nf || (lost && ns && f != E2M1) }

/-- The code of `y` under the store step, with its events. FP32 is stored as it is, under either overflow mode: R60 stores `y`
itself, and R65 names an infinity into FP32 among the writes that are not counted (DEDUCED, log entry 19; Table 2.5 would have
the largest finite value under `SAT`). -/
def Target.code (t : Target) (y : Num) : Nat × Ev :=
  if t.fmt = FP32 then (y.pat32, { nf := y.isMade, uf := y.flushed })
  else
    let v := t.codeDomain y
    let (c, e) := if fmtInt t.fmt then encodeI t.fmt t.zp v else encodeF t.fmt t.ns v
    (c, Ev.ofStep t.fmt t.ns y v e)

/-- Stores one value: nothing is written for a value without meaning (R42). -/
def Target.put (t : Target) (s : Stat) (y : Num) : Option Nat × Stat :=
  if y = .bad then (none, s)
  else
    let (c, e) := t.code y
    (some c, (s.observe t.fmt y (t.codeDomain y)).events e)

/-- Scale exponent that R40 chooses for a chunk. -/
def chunkExp (l : List Num) : Int :=
  match l.foldl (fun a x => if x.isFin then a.max x.abs else a) Num.zero with
  | .fin _ m e => if m = 0 then 0 else max (ilog m e - 14) (-126)
  | _ => 0

/-- Quantises one chunk (R40, R41): codes, scale pattern, statistics. Every value quantised counts its events; the flag says
which of them are observed. A value without meaning is left unwritten. -/
def quantChunk (s : Stat) (l : List (Num × Bool)) : List (Option Nat) × Nat × Stat :=
  let k := chunkExp (l.map (·.1))
  let cs : List ((Num × Bool) × Nat × Ev) := l.map fun y => (y, match y.1 with
    | .fin t m e => let (c, v) := encodeF G16 true (.fin t m (e - k)); (c, { v with uf := v.uf || y.1.flushed })
    | z => ((encodeF G16 true z).1, { nf := true }))
  let s := (cs.filter fun x => x.1.1 != Num.bad).foldl (fun s x =>
    (if x.1.2 then s.observe G16 x.1.1 x.1.1 else s).events x.2.2) s
  (cs.map fun x => if x.1.1 = .bad then none else some x.2.1, (Num.fin false 1 k).pat32, s)

/-- What an operation writes into one tensor: element codes (none: left as they are) and, for G16, chunk scales; whether some
value written or quantised again had no meaning (R42); the statistics. -/
structure Plane where
  codes : List (Option Nat)
  scales : List (Option Nat) := []
  stat : Stat := {}
  bad : Bool := false
deriving DecidableEq, Repr

/-- Stores a list of values from element 0 on; `none` leaves an element as it is. In a G16 chunk that is written in part the
other elements are quantised again from the values `old` (R184). -/
def Target.store (t : Target) (ys : List (Option Num)) (old : Nat → Num := fun _ => .bad) : Plane :=
  if t.fmt = G16 then
    let zs := (List.range ys.length).zip ys
    (chunksOf 32768 (ceilDiv ys.length 32768) zs).foldl (fun p l =>
      if l.all (·.2.isNone) then { p with codes := p.codes ++ l.map fun _ => none, scales := p.scales ++ [none] }
      else
        let vs := l.map fun y => (y.2.getD (old y.1), y.2.isSome)
        let (cs, s, st) := quantChunk p.stat vs
        { codes := p.codes ++ cs, scales := p.scales ++ [some s], stat := st, bad := p.bad || vs.any (·.1 == .bad) })
      { codes := [] }
  else
    let r := ys.foldl (fun (p : List (Option Nat) × Stat) y => match y with
      | none => (none :: p.1, p.2)
      | some y => let (c, s) := t.put p.2 y; (c :: p.1, s)) ([], {})
    { codes := r.1.reverse, stat := r.2, bad := ys.contains (some .bad) }

/-! ### Packing (R30, R31) -/

/-- What an operation writes: whole bytes, and single nibbles (address, upper half, value), whose neighbours stay as they
are at completion (R173). -/
structure Bytes where
  whole : List (Nat × Byte) := []
  half : List (Nat × Bool × Nat) := []
deriving DecidableEq, Repr

/-- 4-bit codes from byte `pa` on; `free` is the upper nibble that a last odd element leaves. -/
def pack4 (free : Nat) : Nat → List (Option Nat) → Bytes
  | _, [] => {}
  | pa, [a] => match a with
    | none => {}
    | some a => { whole := [(pa, BitVec.ofNat 8 (a % 16 + free % 16 * 16))] }
  | pa, a :: b :: t =>
    let r := pack4 free (pa + 1) t
    match a, b with
    | none, none => r
    | some a, some b => { r with whole := (pa, BitVec.ofNat 8 (a % 16 + b % 16 * 16)) :: r.whole }
    | some a, none => { r with half := (pa, false, a % 16) :: r.half }
    | none, some b => { r with half := (pa, true, b % 16) :: r.half }

/-- Bytes of codes of `n` bytes each. -/
def packN (n : Nat) : Nat → List (Option Nat) → List (Nat × Byte)
  | _, [] => []
  | pa, a :: t => (match a with | none => [] | some a => atAddr pa (leBytes n a)) ++ packN n (pa + n) t

/-- Bytes that a plane of format `f` writes at buffer address `pa`, its scale plane at `aux`; `tail` is the upper nibble of
a last odd element where the operation moves it (R32), free otherwise (R31). -/
def Mod.packPlane (m : Mod) (pa aux f : Nat) (p : Plane) (tail : Option Nat) : Bytes × Mod :=
  let ws := packN 4 aux p.scales
  if fmtWidth f = 4 then
    let (k, m) := m.draw
    let r := pack4 (tail.getD (Config.freeNat k)) pa p.codes
    ({ r with whole := r.whole ++ ws }, m)
  else ({ whole := packN (fmtWidth f / 8) pa p.codes ++ ws }, m)

/-! ### Targets of outputs (R101, R482) -/

/-- The scale published with a format written at scale `s`: R101 has 1.0 for FP32 and G16, also for a whole move of bits, of
which R482 and R283 say the source's scale (DEDUCED, log entry 20: R101 is the rule of what is published). -/
def pubScale (f s : Nat) : Nat := if f = FP32 || f = G16 then 0x3F800000 else s

/-- The target of a whole write: `req_fmt` and `plan_scale`. -/
def Cap.target (x : Cap) : Target :=
  { fmt := Pl.reqFmt (Ds.plan x.desc), scale := Ds.planScale x.desc, zp := Ds.zeroPt x.desc, ns := Pl.nonsat (Ds.plan x.desc) }

/-- The target of a partial write: the present format and scale. -/
def Cap.present (x : Cap) : Target :=
  { fmt := x.fmt, scale := Ds.scale x.desc, zp := Ds.zeroPt x.desc, ns := Pl.nonsat (Ds.plan x.desc) }

/-- Whether the captured scale obeys R58. -/
def Cap.scaleOk (x : Cap) : Bool :=
  if x.fmt = G16 then Ds.scale x.desc == 0x3F800000 else posNormal (Ds.scale x.desc)

/-- Rank and extents. -/
def Cap.rank (x : Cap) : Nat := Ds.rank x.desc
def Cap.ext (x : Cap) (k : Nat) : Nat := Ds.ext x.desc k
def Cap.exts (x : Cap) : List Nat := [x.ext 0, x.ext 1, x.ext 2, x.ext 3]

end Sys2Proof.Machine
end

