-- ==== Sys2Proof/Machine/Steering.lean ====
section
/-! DEFINITION. Precision steering during operations (R104-R116, R125, R126, R128): statistics records, overflow,
correction, fallback decision, storms, event records; abandoning a step (R319) and late vote conditions (R317). -/

namespace Sys2Proof.Machine

/-! ### Late conditions and abandonment (R317, R319) -/

/-- A code of Table 12.3 other than `ST_OK`, for a record whose status the spec does not state (R13, R361): which of them is
a free value. -/
def Mod.someStatus (m : Mod) : Status × Mod :=
  let (k, m) := m.draw
  (statusCodes.getD (Config.freeNat k % statusCodes.length) ST_STEP_ORDER, m)

/-- A vote condition that arises after the verdict is fixed, or a veto written then: its `cond_late` bit and a fault-log
record, whose status the spec does not state. -/
def Mod.lateCond (m : Mod) (c b : Nat) : Mod :=
  let (st, m) := (m.setBit F.STEP_STAT_cond_late c b true).someStatus
  m.log { st := st, cls := .event, block := Blk.STEP, ctx := c, d0 := b }

/-- The `NONFINITE` condition of context `c` is late when the count passes its limit only after the verdict (R317). -/
def Mod.lateNf (m : Mod) (c : Nat) : Mod :=
  if m.on F.STEP_STAT_verdict_fixed c && m.stepOpen c
      && decide (m.get F.STEP_NF_LIMIT_nf_limit c < m.get F.MQ_NF_TOTAL_nonfinite_total c)
      && !(((m.get F.STEP_STAT_cond_late c) ||| (m.get F.STEP_STAT_cond c)).testBit 1) then m.lateCond c 1
  else m

/-- A `STEP` trace record: 0 begin, 1 end, 2 vote resolved, 3 flip complete, 4 abandoned, 5 closed by host. -/
def Mod.stepTrace (m : Mod) (c kind : Nat) : Mod :=
  m.trace 16 0x06 c 0 0xFFFF (kind + m.get F.STEP_STAT_outcome c * 16 + m.get F.STEP_CUR_step c * 2 ^ 64)

/-- Abandons the open step of context `c` (R319); a storm is a cause of its own. After the verdict it is late (R317). -/
def Mod.abandonStep (m : Mod) (c : Nat) (storm : Bool) : Mod :=
  if !m.stepOpen c then m
  else if m.on F.STEP_STAT_verdict_fixed c then m.lateCond c (if storm then 2 else 5)
  else
    let m := if m.on F.STEP_STAT_abandoned c then m
      else (m.set F.STEP_STAT_abandoned c 1).stepTrace c 4
    if storm then m else m.setCtx c { m.ctx c with abandonOther := true }

/-! ### Event records (R128, R129) -/

/-- An event: code, tensor index, layer, formats before and after, scale pattern after, plan version after, partition. -/
structure MqEv where
  code : Nat
  tensor : Nat := 0
  layer : Nat := 0
  before : Nat := 0
  after : Nat := 0
  scale : Nat := 0
  ver : Nat := 0
  part : Nat := 0xFF
deriving DecidableEq, Repr

/-- Writes an event record into the ring of context `c`. -/
def Mod.mqEvent (m : Mod) (c : Nat) (e : MqEv) : Mod :=
  let sl := m.get F.MQ_LOG_CFG_size_log2 c
  if sl = 0 then m
  else
    m.ringWrite (m.get F.MQ_LOG_CFG_base c * 4096) (2 ^ sl) 32 F.MQ_LOG_PTR_head F.MQ_LOG_PTR_tail F.MQ_LOG_PTR_lost c
      (leBytes 8 m.time ++ leBytes 8 (m.get F.STEP_CUR_step c) ++ leBytes 4 e.tensor ++ leBytes 2 e.layer
        ++ leBytes 1 e.code ++ leBytes 1 (e.before + 16 * e.after) ++ leBytes 4 e.scale ++ leBytes 2 e.ver
        ++ leBytes 1 e.part ++ leBytes 1 0) true

/-- A partition of the mask for the records of one that the operation's schedule would name (free choice). -/
def Mod.somePart (m : Mod) (parts : Nat) : Nat × Mod :=
  let (k, m) := m.draw
  let l := bitList 16 parts
  (l.getD (Config.freeNat k % max l.length 1) 0xFF, m)

/-! ### Statistics records (R107, R108) -/

/-- Physical address of the record of tensor `j` of context `c`. -/
def Mod.statAt (m : Mod) (c j : Nat) : Nat := m.get F.CAL_STAT_CFG_base c * 512 + 512 * j

/-- A number in a record. -/
def Mod.statGet (m : Mod) (c j off n : Nat) : Nat := m.rdNat (m.statAt c j + off) n

/-- Writes a number into a record; a part of a poisoned word is left and the failure recorded (R221). -/
def Mod.statSet (m : Mod) (c j off n v : Nat) : Mod :=
  let a := m.statAt c j + off
  if n < 8 && m.poisoned a then m.log { st := ST_MEM_UNCORR, cls := .error, block := Blk.CAL, ctx := c, d1 := a }
  else m.wrInt a (leBytes n v)

/-- Puts a number into a record, as part of an atomic request. -/
def Mod.statPut (m : Mod) (c j off n v : Nat) : Mod := m.wrList (atAddr (m.statAt c j + off) (leBytes n v))

/-- One atomic request to line `line` of a record: `f` applies it, unless a word of the line is poisoned, and then none of it is
applied and the failure is recorded (R216); nor is one to a stack out of service (R202). -/
def Mod.statReq (m : Mod) (c j line : Nat) (f : Mod → Mod) : Mod :=
  let a := m.statAt c j + 128 * line
  if !m.partUp (m.stackOf a) then m.dropped [(a, 128)]
  else if m.poisonedIn a 128 then m.log { st := ST_MEM_UNCORR, cls := .error, block := Blk.CAL, ctx := c, d1 := a }
  else (f m).atomic false a 128

/-- Adds to 64-bit counts of one line, given by their offsets in the record: one request. -/
def Mod.statAdds (m : Mod) (c j line : Nat) (l : List (Nat × Nat)) : Mod :=
  if l.all (·.2 == 0) then m
  else m.statReq c j line fun m => l.foldl (fun m x =>
    if x.2 = 0 then m else m.statPut c j x.1 8 (m.statGet c j x.1 8 + x.2)) m

/-- Sets bits of `flags_step`. -/
def Mod.statFlag (m : Mod) (c j mask : Nat) : Mod :=
  m.statReq c j 0 fun m => m.statPut c j 4 4 ((m.statGet c j 4 4) ||| mask)

/-- Raises `amax_step`: a request without a new maximum changes nothing. -/
def Mod.statMax (m : Mod) (c j amax : Nat) : Mod :=
  if amax = 0 then m
  else m.statReq c j 0 fun m => m.statPut c j 0 4 ((num32 (m.statGet c j 0 4)).max (num32 amax)).pat32

/-- Merges an operation's statistics; of a re-run only overflows, saturations, excess and non-finite counts (R107, R116). -/
def Mod.statMerge (m : Mod) (c j : Nat) (s : Stat) (rerun : Bool) : Mod :=
  let k (n : Nat) : Nat := if rerun then 0 else n
  let m := m.statMax c j (k s.amax)
  let m := m.statAdds c j 0 [(8, k s.nVal), (16, k s.nNz), (24, s.nSat), (32, k s.nUf), (40, k s.nOutl), (48, s.nExc),
    (56, s.nNf), (64, s.nOv)]
  let bins (a : Nat) : List (Nat × Nat) := (List.range 16).map fun b => (0x100 + 8 * (a + b), k (s.hist.getD (a + b) 0))
  let m := (m.statAdds c j 2 (bins 0)).statAdds c j 3 (bins 16)
  (m.set F.MQ_NF_TOTAL_nonfinite_total c (m.get F.MQ_NF_TOTAL_nonfinite_total c + s.nNf)).lateNf c

/-! ### Scales (R111) -/

/-- The scale of R111 for an estimate, a format and a headroom exponent, and whether it was clamped. -/
def planScaleOf (est : Nat) (f e : Nat) : Nat × Bool :=
  match num32 est with
  | .fin _ m x =>
    let (u, q) := quot m (ftOf f) (x + (e : Int))
    let s := (Num.fin false u q).r32
    if s.lt false (.fin false 1 (-126)) then (0x00800000, true)
    else if s.isFin then (s.pat32, false) else (ffMax 5, true)
  | _ => (ffMax 5, true)

/-- Headroom in force: the plan's, plus one while the committed running state's `boost` is 1. -/
def Mod.headroom (m : Mod) (c j : Nat) (plan : Nat) : Nat :=
  Pl.headroom plan + b2n (m.statGet c j 0x87 1 == 1)

/-! ### Storms (R125, R126) -/

/-- Tests the storm condition against `l` layers; a storm begins at most once in a step. -/
def Mod.stormTest (m : Mod) (c l : Nat) (layer : Nat) : Mod :=
  let pct := m.get F.MQ_CTL_storm_pct c
  if pct = 0 || m.on F.MQ_STEP_STAT_storm c || !m.stepOpen c
    || m.get F.MQ_STEP_STAT_layers_overflowed c * 100 ≤ pct * l then m
  else
    let m := m.set F.MQ_STEP_STAT_storm c 1
    let m := if m.on F.MQ_FLAGS_storm_flag_en c then m.ctxFlagAdd c (m.get F.MQ_FLAGS_storm_flag c) 1 Blk.MQ else m
    let m := m.mqEvent c { code := 0x0A, layer := layer }
    m.abandonStep c true

/-- A layer of the step wrote or quantised a steered tensor. -/
def Mod.layerSeen (m : Mod) (c layer : Nat) : Mod :=
  let x := m.ctx c
  if layer = 0xFFFF || x.layersSeen.contains layer then m
  else
    let m := m.setCtx c { x with layersSeen := layer :: x.layersSeen }
    m.set F.MQ_STEP_STAT_layers_seen c (min (x.layersSeen.length + 1) 65535)

/-- A layer of the step overflowed (R112). -/
def Mod.layerOver (m : Mod) (c layer : Nat) : Mod :=
  let x := m.ctx c
  let m := if layer = 0xFFFF || x.layersOver.contains layer then m
    else (m.setCtx c { x with layersOver := layer :: x.layersOver }).set F.MQ_STEP_STAT_layers_overflowed c
      (min (x.layersOver.length + 1) 65535)
  let d := m.get F.MQ_STEP_STAT_layers_declared c
  if d = 0 then m else m.stormTest c d layer

/-! ### What a run of an operation leaves -/

/-- What a run writes into one tensor: its captured slot, format and scale written, the plane, a last odd nibble moved, and
whether format and scale are published on completion. -/
structure OutW where
  cap : Cap
  fmt : Nat
  scale : Nat
  plane : Plane := { codes := [] }
  tail : Option Nat := none
  publish : Bool := true
deriving DecidableEq, Repr

/-- The result of one run: outputs, statistics of operands quantised or checked on load (with the format they were
converted into), the status to complete with, the positions of out-of-range indices, and what the arrays hold. -/
structure RunRes where
  outs : List OutW := []
  loads : List TenStat := []
  status : Status := ST_OK
  index : List Nat := []
  arr : Option ArrayLoad := none
deriving DecidableEq, Repr

/-- Formats and scales that a fallback re-run puts in the place of the captured ones: (slot, format, scale). -/
abbrev Over := List (Nat × Nat × Nat)

/-- The target of an output under the re-run's changes. -/
def Over.target (ov : Over) (x : Cap) : Target :=
  match ov.find? (·.1 == x.slot) with
  | some o => { x.target with fmt := o.2.1, scale := o.2.2 }
  | none => x.target

/-- Index of a captured tensor in its context's quota. -/
def Mod.capIdx (m : Mod) (c : Nat) (x : Cap) : Nat := x.entry - m.get F.CTX_QUOTA_tdt_base c

/-- Whether statistics are gathered for a captured tensor (R104, R107). -/
def capStats (c : Nat) (x : Cap) : Bool := Pl.statsEn (Ds.plan x.desc) && !x.viaAlias && x.owner == c

/-- Statistics of a run that the records of context `c` take (R107). -/
def RunRes.stats (r : RunRes) (c : Nat) : List TenStat :=
  ((r.outs.map fun o => ({ cap := o.cap, fmt := o.fmt, stat := o.plane.stat } : TenStat)) ++ r.loads).filter fun t =>
    capStats c t.cap && t.stat != ({} : Stat)

/-- Whether some load met outlier excess, which marks the layer whoever's tensor it is (R92). -/
def RunRes.excess (r : RunRes) : Bool := r.loads.any fun t => t.stat.nExc != 0

/-- Whether statistics show an overflow (R112). -/
def Stat.over (s : Stat) : Bool := s.nOv != 0 || s.nExc != 0

/-- Whether an operation of context `c` writes or quantises a steered tensor of it (R125). -/
def steersAny (c : Nat) (r : W1024) (caps : List Cap) : Bool :=
  let q := decide (0x10 ≤ Rc.opcode r) && decide (Rc.opcode r ≤ 0x13) && (arrAttr r).testBit 3
  caps.any fun x => Pl.steerEn (Ds.plan x.desc) && x.owner == c && !x.viaAlias
    && (useOf (rowOf r) x.slot != .rd || (q && x.slot == 0))

/-- Merges the statistics of a first run and corrects scales (R107, R112, R113). -/
def Mod.firstRun (m : Mod) (c layer part : Nat) (l : List TenStat) : Mod :=
  let m := l.foldl (fun m t =>
    let j := m.capIdx c t.cap
    let m := m.statMerge c j t.stat false
    let x := m.ctx c
    m.setCtx c { x with touched := insertNew j x.touched }) m
  (l.filter fun t => t.stat.over).foldl (fun m t =>
    let j := m.capIdx c t.cap
    let e := t.cap.entry
    let m := (m.statFlag c j 1).layerOver c layer
    let p := Ds.plan (m.desc e)
    if Pl.steerEn (Ds.plan t.cap.desc) && m.on F.MQ_CTL_correct_en c && m.statGet c j 0 4 ≠ 0 then
      let (s, cl) := planScaleOf (m.statGet c j 0 4) (Pl.reqFmt p) (m.headroom c j p)
      let d := m.desc e
      let s := max s (Ds.planScale d)
      let m := (m.setDesc e (Ds.setPlan d p s)).statFlag c j 8
      let ev : MqEv := { code := 3, tensor := j, layer := layer, before := Pl.reqFmt p, after := Pl.reqFmt p, scale := s,
                         ver := Pl.ver (Ds.plan (m.desc e)), part := part }
      (if cl then m.mqEvent c { ev with code := 4 } else m).mqEvent c ev
    else m) m

/-- The rung above `f` on a plan's ladder when the plan's ceiling admits it (R114). -/
def rungAbove (p f : Nat) : Option Nat :=
  let mid := Pl.midFmt p
  let r := rung mid f
  if r = 0 || r = 3 || rung mid (Pl.ceilFmt p) < r + 1 then none else some (rungFmt mid (r + 1))

/-- Whether a widened output still fits its buffer (R114, R481). -/
def widenFits (x : Cap) (f : Nat) : Bool :=
  let n := planeBytes f x.count
  auxAgrees (Ds.aux x.desc) f && decide (Ds.curOff x.desc + n ≤ Rgn.size x.rgn)
  && (Ds.aux x.desc == 0 || Ds.auxOff x.desc == 0 || decide (n ≤ Ds.auxOff x.desc))

/-- The re-run that R114 and R115 call for, of the record `r` with statistics `l` and publications `pubs`: its changes, and
which scales were clamped; none where the first run stands. Scatter-reduce and `ATOMIC_CAS` read what they write. -/
def Mod.fallbackPlan (m : Mod) (c : Nat) (r : W1024) (caps : List Cap) (pubs : List Pub) (l : List TenStat) :
    List (Nat × Nat × Nat × Bool) :=
  let written := caps.filter fun x => useOf (rowOf r) x.slot != .rd
  if !m.on F.MQ_CTL_fallback_en c || m.on F.MQ_STEP_STAT_storm c || accumOf r || Rc.opcode r == 0x40 || Rc.opcode r == 0x41
    || caps.any (fun x => written.any fun w => w.entry == x.entry && w.slot != x.slot) then []
  else
    let up := (l.filter fun t => t.stat.over).filterMap fun t =>
      let p := Ds.plan t.cap.desc
      if !Pl.fallbackEn p then none
      else (rungAbove p t.fmt).map fun f =>
        let j := m.capIdx c t.cap
        let (s, cl) := planScaleOf (m.statGet c j 0 4) f (m.headroom c j p)
        (t.cap, f, s, cl)
    if up.all fun u => !(written.any fun w => w.slot == u.1.slot)
        || (widenFits u.1 u.2.1 && pubs.any fun p => p.entry == u.1.entry) then
      up.map fun u => (u.1.slot, u.2.1, u.2.2.1, u.2.2.2)
    else []

/-- Bytes and publications of a run's outputs. -/
def Mod.runWrites (m : Mod) (r : RunRes) : Bytes × List Pub × Mod :=
  r.outs.foldl (fun (a : Bytes × List Pub × Mod) o =>
    let (w, m) := a.2.2.packPlane o.cap.base (o.cap.base + Ds.auxOff o.cap.desc) o.fmt o.plane o.tail
    ({ whole := a.1.whole ++ w.whole, half := a.1.half ++ w.half },
      if o.publish then a.2.1 ++ [{ entry := o.cap.entry, fmt := o.fmt, scale := pubScale o.fmt o.scale }] else a.2.1,
      m)) ({}, [], m)

/-- The records of out-of-range indices at the positions `bad`: one of each partition that met some (R185). Which partition
meets an index is the schedule's: a free choice for each. -/
def Mod.indexRecord (m : Mod) (i : Nat) (parts : Nat) (strict : Bool) (bad : List Nat) : Mod :=
  if bad.isEmpty then m
  else
    let (k, m) := m.draw
    let ps := bitList 16 parts
    let whose (j : Nat) : Nat := ps.getD (Config.freeNat k / (max ps.length 1) ^ j % max ps.length 1) 0xFF
    let met := ((List.range bad.length).zip bad).map fun x => (whose x.1, x.2)
    m.each (ps ++ [0xFF]) fun m p =>
      match met.filter (·.1 == p) with
      | [] => m
      | x :: t =>
        m.log { st := ST_INDEX_RANGE, cls := if strict then .error else .event, block := Blk.Q, ctx := qCtx i, part := p,
                queue := i, d0 := min (t.length + 1) (2 ^ 32 - 1), d1 := x.2 }

/-- Puts a run's outputs into the operation of queue `i`, with the statistics that it hands over when it ends (R107). -/
def Mod.takeRun (m : Mod) (i : Nat) (kind : RunKind) (r : RunRes) : Mod :=
  let (ws, pubs, m) := m.runWrites r
  m.modOp i fun o => { o with writes := ws.whole, nibbles := ws.half, pubs := pubs, status := r.status, fallback := [],
                              ready := true, run := kind, stats := r.stats (qCtx i), excess := r.excess, arr := r.arr }

/-- Every byte of a buffer's planes in format `f`: the data, and for G16 the scale words. -/
def Cap.bytesOf (x : Cap) (f : Nat) : List Nat :=
  (List.range (planeBytes f x.count)).map (x.base + ·)
  ++ (if f = G16 then (List.range (auxBytes (Ds.aux x.desc) x.count)).map (x.base + Ds.auxOff x.desc + ·) else [])

/-- Every byte of the outputs, which an operation that read poison leaves undefined (R220). -/
def outAddrs (r : RunRes) : List Nat := (r.outs.filter fun o => !o.cap.host).flatMap fun o => o.cap.bytesOf o.fmt

/-- The operation of queue `i` has read poison: its outputs are undefined and it ends with `ST_MEM_UNCORR` (R220). -/
def Mod.runPoisoned (m : Mod) (i : Nat) (res : RunRes) : Mod :=
  let as := outAddrs res
  let (bs, m) := m.drawBytes as.length
  m.modOp i fun o => { o with writes := as.zip bs, nibbles := [], status := ST_MEM_UNCORR, pubs := [], fallback := [],
                              ready := true, run := .none, stats := [] }

/-- The first run of the operation of queue `i` with result `res`; `poison` says whether it read a poisoned word. -/
def Mod.runFirst (m : Mod) (i : Nat) (poison strict : Bool) (res : RunRes) : Mod :=
  if poison then m.runPoisoned i res
  else (m.indexRecord i (m.qMask i) strict res.index).takeRun i .first res

/-- Logs an event for each overflowed tensor of a run: `FALLBACK_SUPPRESSED` (6) or `FALLBACK_FAILED` (7). -/
def Mod.overEvents (m : Mod) (code c layer part : Nat) (l : List TenStat) : Mod :=
  (l.filter fun t => t.stat.over).foldl (fun m t =>
    let j := m.capIdx c t.cap
    let m := if code = 7 then m.statFlag c j 4 else m
    m.mqEvent c { code := code, tensor := j, layer := layer, before := t.fmt, after := if code = 6 then t.fmt else 0,
                  ver := Pl.ver (Ds.plan (m.desc t.cap.entry)), part := part }) m

/-- What follows the end of a first run (R107, R112-R114, R125): statistics merged, layers marked, scales corrected, and the
decision on a fallback: the changes of the re-run, or none and the event that says so. -/
def Mod.firstEnd (m : Mod) (c part : Nat) (r : W1024) (caps : List Cap) (pubs : List Pub) (l : List TenStat)
    (excess : Bool) : Over × Mod :=
  let layer := Rc.layer r
  let m := if steersAny c r caps then m.layerSeen c layer else m
  let m := m.firstRun c layer part l
  let m := if excess then m.layerOver c layer else m
  let fb := m.fallbackPlan c r caps pubs l
  if fb.isEmpty then ([], m.overEvents 6 c layer part l)
  else
    (fb.map fun u => (u.1, u.2.1, u.2.2.1), fb.foldl (fun m u =>
      match capOf caps u.1 with
      | some x => if u.2.2.2 then
          m.mqEvent c { code := 4, tensor := m.capIdx c x, layer := layer, after := u.2.1, scale := u.2.2.1,
                        ver := Pl.ver (Ds.plan (m.desc x.entry)), part := part }
        else m
      | none => m) m)

/-- The marks of a re-run with the changes `ov` (R115). -/
def Mod.fallbackMarks (m : Mod) (c part layer : Nat) (caps : List Cap) (ov : Over) : Mod :=
  ov.foldl (fun m u =>
    match capOf caps u.1 with
    | some x =>
      let j := m.capIdx c x
      let mid := Pl.midFmt (Ds.plan x.desc)
      let m := (m.statFlag c j 2).statSet c j 0xA0 4 (satAdd 32 (m.statGet c j 0xA0 4) 1)
      m.mqEvent c { code := 5, tensor := j, layer := layer, before := rungFmt mid (rung mid u.2.1 - 1), after := u.2.1,
                    scale := u.2.2, ver := Pl.ver (Ds.plan (m.desc x.entry)), part := part }
    | none => m) m

/-- What follows the end of a re-run (R116): a part of its statistics, and the event of a second overflow. -/
def Mod.againEnd (m : Mod) (c layer part : Nat) (l : List TenStat) : Mod :=
  (l.foldl (fun m t => m.statMerge c (m.capIdx c t.cap) t.stat true) m).overEvents 7 c layer part l

/-- The run of the operation of queue `i` has ended and hands over its statistics; a first run may call for a fallback, for
which the operation then waits. -/
def Mod.mergeRun (m : Mod) (i : Nat) : Mod :=
  match (m.queue i).op with
  | none => m
  | some o =>
    if o.run = .none then m
    else
      let c := qCtx i
      let (part, m) := m.somePart (m.qMask i)
      let m := m.modOp i fun o => { o with run := .none, stats := [], excess := false }
      if o.run = .again then m.againEnd c (Rc.layer o.rcd) part o.stats
      else
        let (fb, m) := m.firstEnd c part o.rcd o.caps o.pubs o.stats o.excess
        if fb.isEmpty then m else m.modOp i fun o => { o with ready := false, fallback := fb }

/-- The re-run of the operation of queue `i` with result `res` (R115, R116). -/
def Mod.runAgain (m : Mod) (i : Nat) (o : Op) (poison : Bool) (res : RunRes) : Mod :=
  if poison then m.runPoisoned i res
  else
    let (part, m) := m.somePart (m.qMask i)
    (m.fallbackMarks (qCtx i) part (Rc.layer o.rcd) o.caps o.fallback).takeRun i .again res

/-- Whether a matrix or vector operation of the context is skipped because its step was abandoned (R320). -/
def Mod.skipped (m : Mod) (c : Nat) : Bool :=
  m.stepOpen c && m.on F.STEP_STAT_abandoned c && m.on F.STEP_CFG_skip_on_abandon c

/-- A skipped operation: `ST_OK`, its outputs undefined; `as` are the addresses it would have written. -/
def Mod.skipOp (m : Mod) (i : Nat) (as : List Nat) : Mod :=
  let (bs, m) := m.drawBytes as.length
  m.modOp i fun o => { o with writes := as.zip bs }

end Sys2Proof.Machine
end

