-- ==== Sys2Proof/Machine/Cells.lean ====
section
/-! DEFINITION. The nibble cells: `arr_attr` (R84), effective formats (R71-R73, R96, R97), what a stationary cell holds and the
products it forms (R66-R68, Tables 3.1 and 3.2), the array cycles of a dataflow and what `AUTO` resolves to (R81-R83, R85). -/

namespace Sys2Proof.Machine

/-! ### `arr_attr` (Table 3.6) -/

def At.dataflow (a : Nat) : Nat := bits a 0 2
def At.spatial (a : Nat) : Bool := a.testBit 2
def At.qload (a : Nat) : Bool := a.testBit 3
def At.mode (a : Nat) : Nat := bits a 4 3
def At.split (a : Nat) : Nat := bits a 8 3
/-- Reserved values and bits. -/
def At.ok (a : Nat) : Bool :=
  At.dataflow a != 3 && decide (At.mode a ≤ 5) && !a.testBit 7 && decide (At.split a ≤ 6) && bits a 11 5 == 0

/-! ### Formats -/

/-- Array float formats, FP16 among them (Table 2.1). -/
def arrFloat (f : Nat) : Bool := decide (f ≤ 4)
/-- A stored FP16 operand counts as BF16 (R71). -/
def asArr (f : Nat) : Nat := if f = FP16 then BF16 else f
/-- The join of Table 3.4. -/
def joinF (a b : Nat) : Nat := if a = b then a else if a = E2M1 then b else if b = E2M1 then a else BF16

/-- The effective format of operand A (R71, R73, R96, R97) from the requested format and those stored. -/
def effFmt (attr req fa fb : Nat) : Nat :=
  match At.mode attr with
  | 0 => let r := joinF (asArr req) (asArr fb); if At.qload attr then r else joinF r (asArr fa)
  | 1 => if fa = INT8 || fb = INT8 then INT8 else INT4
  | 2 => if At.qload attr then asArr req else joinF (asArr req) (asArr fa)
  | _ => fa

/-- Whether the mode and format run in two digits (Table 3.2). -/
def twoDigit (attr eff : Nat) : Bool := decide (At.mode attr ≤ 1) && (eff == BF16 || eff == INT8)

/-- Reduction group (Table 3.3). -/
def groupSize (attr eff : Nat) : Nat :=
  match At.mode attr with
  | 0 => if eff = E2M1 then 64 else if eff = BF16 && At.spatial attr then 16 else 32
  | 1 => if eff = INT8 && At.spatial attr then 16 else 32
  | 2 => 32
  | _ => 16

/-! ### Stationary entries (R66, R67, Table 3.1) -/

/-- Sign, significand with its hidden bit, and unbiased exponent of a float code (R66). A reserved pattern gives its fields as
they stand, which Table 3.1 does not speak of (DESIGN CHOICE, log entry 76). -/
def codeParts (f c : Nat) : Bool × Nat × Int :=
  let mb := ffMant f
  let x := c % 2 ^ (fmtWidth f - 1)
  let e := x / 2 ^ mb
  let mf := x % 2 ^ mb
  (c.testBit (fmtWidth f - 1), if e = 0 then mf else mf + 2 ^ mb, (if e = 0 then 1 else (e : Int)) - (ffBias f : Int))

/-- A one-digit, or the high digit of a two-digit, register: digit, sign, exponent. -/
def cellReg (s : Bool) (digit : Nat) (e : Int) : BitVec 14 :=
  BitVec.ofNat 14 (digit % 16 + b2n s * 16 + unsigned 9 e * 32)

/-- The entry of one element that enters with value `v` in format `eff`; in a two-digit mode the low digit stands beside it: in
the companion register (temporal) or in the lower cell of the group (spatial, R68). -/
def cellOf (eff : Nat) (v : Num) : Cell :=
  if fmtInt eff then
    let (s, n) := match v with
      | .fin s m e => (s, (finInt false m e (Min.min e 0)).natAbs)
      | _ => (false, 0)
    if eff = INT8 then { reg := cellReg s (n / 16) 0, low := BitVec.ofNat 4 n } else { reg := cellReg s n 0 }
  else
    let (s, g, e) := codeParts eff (encodeF eff true v).1
    if eff = BF16 then { reg := cellReg s (g / 16) e, low := BitVec.ofNat 4 g } else { reg := cellReg s g e }

/-- The entry of two consecutive E2M1 elements (half-digit mode). -/
def cellPair (v w : Num) : Cell :=
  let (s, g, e) := codeParts E2M1 (encodeF E2M1 true v).1
  let (t, h, d) := codeParts E2M1 (encodeF E2M1 true w).1
  { reg := BitVec.ofNat 14 (g + 4 * h + 16 * b2n s + 32 * (e + 1).toNat + 128 * (d + 1).toNat + 512 * b2n t) }

/-- Entries of half-digit mode. -/
def cellPairs : List Num → List Cell
  | v :: w :: t => cellPair v w :: cellPairs t
  | [v] => [cellPair v .zero]
  | [] => []

/-- The stationary entries of an operand that enters with the values `vs`. The registers of table-product and semiring modes have
no layout in the spec: none are held (DESIGN CHOICE, log entry 76). -/
def cellsOf (attr eff : Nat) (vs : List Num) : List Cell :=
  if 2 ≤ At.mode attr then [] else if eff = E2M1 then cellPairs vs else vs.map (cellOf eff)

/-- The four digit products of two 8-bit magnitudes, combined with shifts 8, 4, 4 and 0 (R68). -/
def digitProduct (a b : Nat) : Nat :=
  (a / 16 * (b / 16)) * 2 ^ 8 + (a / 16 * (b % 16)) * 2 ^ 4 + (a % 16 * (b / 16)) * 2 ^ 4 + a % 16 * (b % 16)

/-- The product that a cell forms of its entry and a streaming one: magnitudes multiplied, exponents added, signs exclusive-ored
(R66); as sign, magnitude, exponent sum. -/
def Cell.times (wide : Bool) (x y : Cell) : Bool × Nat × Int :=
  let sig (c : Cell) : Nat := if wide then c.reg.toNat % 16 * 16 + c.low.toNat else c.reg.toNat % 16
  let ex (c : Cell) : Int := signed 9 (bits c.reg.toNat 5 9)
  (x.reg.toNat.testBit 4 != y.reg.toNat.testBit 4,
    if wide then digitProduct (sig x) (sig y) else sig x * sig y, ex x + ex y)

/-! ### Dataflow (R81-R85) -/

/-- Rows (reduction) and columns of the logical array (Table 3.3). -/
def tileOf (attr eff : Nat) : Nat × Nat :=
  if 3 ≤ At.mode attr then (16, 16)
  else if twoDigit attr eff && At.spatial attr then (16, 16)
  else if At.mode attr = 0 && eff = E2M1 then (64, 32) else (32, 32)

/-- Cycles per streaming vector, and stationary fill (Table 3.3). -/
def vectorCycles (attr eff : Nat) : Nat := if twoDigit attr eff && !At.spatial attr then 4 else 1
def fillCycles (attr : Nat) : Nat := if At.mode attr = 2 then 512 else 32

/-- Array cycles of a product M × K by K × N whose stationary operand has `d` of its outer dimension and streams `v` vectors:
passes times the time of a pass with a moving front (R81-R83). -/
def flowCycles (attr eff k d v : Nat) : Nat :=
  ceilDiv k (tileOf attr eff).1 * ceilDiv d (tileOf attr eff).2 * max (v * vectorCycles attr eff) (fillCycles attr)

/-- The dataflow an operation runs in (R85): 0 `WS`, 1 `IS`; `AUTO` takes the one with fewer cycles, `WS` of two equal, and `IS`
in table-product mode. -/
def flowOf (attr eff m n k : Nat) : Nat :=
  if At.dataflow attr ≠ 2 then At.dataflow attr
  else if At.mode attr = 2 then 1
  else if flowCycles attr eff k n m ≤ flowCycles attr eff k m n then 0 else 1

end Sys2Proof.Machine
end

