-- ==== Sys2Proof/Machine/Arrays.lean ====
section
/-! DEFINITION. Matrix operations on the fusible nibble-cell arrays: formats (R71-R73, R96-R98), loads
with the outlier side path (R56, R72, R90-R92), sums (R74-R77, R94-R97), epilogue and store (R60, R62, R63, R174), and the
checks and index maps of `MATMUL`, `BMATMUL`, `CONV` and `ATTN` (R86-R89, R174-R176). -/

namespace Sys2Proof.Machine

/-! ### Attributes and formats -/

/-- Whether `epi` includes bias, activation, residual (Table 6.3). -/
def epiBias (e : Nat) : Bool := e == 1 || e == 3 || e == 5
def epiAct (e : Nat) : Bool := e == 2 || e == 3 || e == 5
def epiRes (e : Nat) : Bool := e == 4 || e == 5
/-- Encodings of `epi` and `act` on their own. -/
def epiOk (e act : Nat) : Bool :=
  decide (e ≤ 5) && (if epiAct e then decide (0x20 ≤ act) && decide (act ≤ 0x29) else act == 0)

/-- Whether the operands' formats suit the mode (R29, R72, R73, R96, R97). `req` is A's requested format. -/
def arrFormats (attr req fa fb : Nat) : Bool :=
  let q := At.qload attr
  match At.mode attr with
  | 0 => arrFloat fa && arrFloat fb && arrFloat req && (!q || fa == BF16 || fa == FP16)
  | 1 => (fa == INT4 || fa == INT8) && (fb == INT4 || fb == INT8) && !q
  | 2 => arrFloat fa && fb == CODE4 && arrFloat req && (!q || fa == BF16 || fa == FP16)
  | _ => fa == fb && (fa == INT8 || fa == E4M3 || fa == E5M2) && !q

/-- Whether the sums are exact integers. -/
def arrInt (attr fa : Nat) : Bool := At.mode attr == 1 || (decide (3 ≤ At.mode attr) && fa == INT8)

/-! ### Loads -/

/-- An operand A as it enters the array: per element the entering value and, for a diverted one, its side-list value. -/
structure LoadA where
  vals : List (Num × Option Num) := []
  stat : Stat := {}
deriving DecidableEq, Repr

/-- Entries per load tile (Table 3.8). -/
def capEntries : Nat → Nat
  | 1 => 128 | 2 => 64 | 3 => 32 | _ => 0

/-- Loads an element of real value `x` quantised into format `eff` at scale pattern `s` (R60, R90-R92); `used` counts the tile's
entries. -/
def quantOne (eff s : Nat) (ns : Bool) (cap : Nat) (x : Num) (used : Nat) (st : Stat) : (Num × Option Num) × Nat × Stat :=
  let v := scaleBy x (Num.one.div (num32 s))
  let st := st.observe eff x v
  let (c, e) := encodeF eff ns v
  let e := Ev.ofStep eff ns x v e
  if e.ov then
    if used < cap then ((.zero, some v.rbf), used + 1, { st with nOutl := st.nOutl + 1 })
    else ((decodeF eff c, none), used, { st.events e with nExc := st.nExc + 1 })
  else ((decodeF eff c, none), used, st.events e)

/-- Element `i` of an array operand as its loader takes it: an FP16 one becomes BF16, and a non-finite one is then counted
(R56). That holds of an operand quantised on load as well, whose values R60 then divides by the scale (DEDUCED, log entry 19:
R72 does not repeat it). -/
def Mod.loadElem (m : Mod) (x : Cap) (i : Nat) (st : Stat) : Num × Stat :=
  let v := m.plain x (m.code x i)
  if x.fmt = FP16 then (v.rbf, if v.isFin then st else { st with nNf := st.nNf + 1 }) else (v, st)

/-- Loads operand A: quantised into `eff` at `s`, or as stored. -/
def Mod.loadA (m : Mod) (x : Cap) (q : Bool) (eff s : Nat) : LoadA :=
  if q then
    let cap := capEntries (Pl.outlierCap (Ds.plan x.desc))
    let r := (List.range x.count).foldl (fun (a : List (Num × Option Num) × Nat × Stat) i =>
      let used := if i % 4096 = 0 then 0 else a.2.1
      let (e, st) := m.loadElem x i a.2.2
      let (v, u, st) := quantOne eff s (Pl.nonsat (Ds.plan x.desc)) cap (scaleBy e x.scale) used st
      (v :: a.1, u, st)) ([], 0, {})
    { vals := r.1.reverse, stat := r.2.2 }
  else
    let r := (List.range x.count).foldl (fun (a : List (Num × Option Num) × Stat) i =>
      let (v, st) := m.loadElem x i a.2
      ((v, none) :: a.1, st)) ([], {})
    { vals := r.1.reverse, stat := r.2 }

/-- The side list of a load (Table 3.9), in ascending storage order. -/
def LoadA.side (l : LoadA) : List W64 :=
  ((List.range l.vals.length).zip l.vals).filterMap fun x => x.2.2.map fun o =>
    BitVec.ofNat 64 ((encodeF BF16 true o).1 + x.1 % 4096 * 2 ^ 16 + x.1 / 4096 * 2 ^ 32)

/-- What the arrays hold of an operation that multiplies M × K by K × N with the loaded operands `a`, `b`. -/
def arrayLoad (attr eff m n k : Nat) (a b : LoadA) : ArrayLoad :=
  let f := flowOf attr eff m n k
  { flow := f, cells := cellsOf attr eff ((if f = 0 then b else a).vals.map (·.1)), side := a.side }

/-- Operand B, never quantised on load. -/
def Mod.loadB (m : Mod) (x : Cap) : LoadA := m.loadA x false 0 0

/-! ### Sums -/

/-- For one output element: per reduction index the element of A (none: padding) and the element of B. -/
abbrev Feed := List (Option Nat × Nat)

/-- Value of A that enters at a feed. -/
def LoadA.at (l : LoadA) (i : Nat) : Num × Option Num := l.vals.getD i (.zero, none)

/-- Outlier corrections in ascending reduction index (R94). -/
def correctAcc (a b : LoadA) (fd : Feed) (acc : Num) : Num :=
  fd.foldl (fun acc f => match f.1 with
    | some i => match (a.at i).2 with
      | some o => acc.addR (o.mulR (b.at f.2).1)
      | none => acc
    | none => acc) acc

/-- The entering value of A at a feed: padding is +0 (R89). -/
def feedA (a : LoadA) (f : Option Nat × Nat) : Num := match f.1 with | some i => (a.at i).1 | none => .zero

/-- Float accumulator of one output element, and how many of its table products overflowed BF16 (R74-R77, R96, R97). -/
def floatAcc (attr eff : Nat) (a b : LoadA) (fd : Feed) : Num × Nat :=
  let g := groupSize attr eff
  match At.mode attr with
  | 0 => (correctAcc a b fd (reduceSum g (At.split attr) (fd.map fun f => (feedA a f).mul (b.at f.2).1)), 0)
  | 2 =>
    let ps := fd.map fun f => ((feedA a f).mul (b.at f.2).1)
    (correctAcc a b fd (reduceSum g (At.split attr) (ps.map Num.rbf)),
      (ps.filter fun p => p.isFin && !p.rbf.isFin).length)
  | 3 => ((fd.map fun f => (feedA a f).addR (b.at f.2).1).foldl Num.min (.inf false), 0)
  | 4 => ((fd.map fun f => (feedA a f).addR (b.at f.2).1).foldl Num.max (.inf true), 0)
  | _ => (reduceSum g (At.split attr) (fd.map fun f => ((feedA a f).addR (b.at f.2).1.neg).abs), 0)

/-- The stored integer of a loaded value. -/
def Num.toInt : Num → Int
  | .fin s m e => finInt s m e (Min.min e 0)
  | _ => 0

/-- Integer accumulator of one output element (R62, R95, R97); padding equals A's zero point (R89). -/
def intAcc (attr : Nat) (za zb : Int) (a b : LoadA) (fd : Feed) : Int :=
  let av (f : Option Nat × Nat) : Int := match f.1 with | some i => (a.at i).1.toInt | none => za
  let bv (f : Option Nat × Nat) : Int := (b.at f.2).1.toInt
  match At.mode attr with
  | 1 =>
    let s := fd.foldl (fun (t : Int × Int × Int) f => (t.1 + av f * bv f, t.2.1 + av f, t.2.2 + bv f)) (0, 0, 0)
    s.1 - zb * s.2.1 - za * s.2.2 + (fd.length : Int) * za * zb
  | 3 => fd.foldl (fun t f => min t (av f + bv f)) (2 ^ 47 - 1)
  | 4 => fd.foldl (fun t f => max t (av f + bv f)) (-(2 ^ 47))
  | _ => fd.foldl (fun t f => t + ((av f - bv f).natAbs : Int)) 0

/-! ### One matrix operation -/

/-- What a matrix record asks for, once checked: attributes, M, N and K of one product, epilogue, feeds of each output element,
index of its bias element, and the rescale of the integer path. -/
structure MatJob where
  attr : Nat
  dims : Nat × Nat × Nat
  epi : Nat
  act : Nat
  accum : Bool
  feed : Nat → Feed
  biasAt : Nat → Nat
  mult : Int := 1
  shift : Nat := 0
  zo : Int := 0

/-- The format that operand A's conversions into the array use, under a re-run's changes. -/
def Over.reqOf (ov : Over) (x : Cap) : Nat × Nat :=
  match ov.find? (·.1 == x.slot) with
  | some o => o.2
  | none => (Pl.reqFmt (Ds.plan x.desc), Ds.planScale x.desc)

/-- The epilogue on `y` (R174): bias, activation, residual, present output, each added with one RNE32. -/
def Mod.epilogue (m : Mod) (j : MatJob) (caps : List Cap) (out : Cap) (i : Nat) (y : Num) : Num :=
  let y := match capOf caps 3 with | some b => if epiBias j.epi then y.addR (m.real b (j.biasAt i)) else y | none => y
  let y := if epiAct j.epi then actFn j.act y else y
  let y := match capOf caps 4 with | some r => if epiRes j.epi then y.addR (m.real r i) else y | none => y
  if j.accum then y.addR (m.real out i) else y

/-- Integer results: the codes and their saturation counts. -/
def intPlane (l : List (Nat × Ev)) : Plane :=
  { codes := l.map fun x => some x.1, stat := l.foldl (fun s x => s.events x.2) {} }

/-- The statistics that a load leaves: those of a quantised operand, and the checks of a stored FP16 one (R56). -/
def loadStats (x : Cap) (q : Bool) (eff : Nat) (l : LoadA) : List TenStat :=
  if q then [{ cap := x, fmt := eff, stat := l.stat }]
  else if x.fmt = FP16 then [{ cap := x, fmt := BF16, stat := l.stat }] else []

/-- A run of a matrix operation with operands in slots 0 (A), 1 (B), 2 (output), 3 (bias), 4 (residual). An output element whose
bias, residual or present output lies in a G16 chunk with a bad scale stays unwritten, as R42 says of a vector operation, which
forms the epilogue (DEDUCED, log entry 19: R42 does not name matrix operations). -/
def Mod.matRun (m : Mod) (j : MatJob) (caps : List Cap) (ov : Over) : RunRes :=
  match capOf caps 0, capOf caps 1, capOf caps 2 with
  | some a, some b, some out =>
    let q := At.qload j.attr
    let (req, qs) := ov.reqOf a
    let eff := effFmt j.attr req a.fmt b.fmt
    let la := m.loadA a q eff qs
    let lb := m.loadB b
    let loads := loadStats a q eff la ++ loadStats b false eff lb
    let arr := arrayLoad j.attr eff j.dims.1 j.dims.2.1 j.dims.2.2 la lb
    let t := ov.target out
    let n := out.count
    if arrInt j.attr a.fmt then
      let za := if At.mode j.attr = 1 then Ds.zeroPt a.desc else 0
      let zb := if At.mode j.attr = 1 then Ds.zeroPt b.desc else 0
      let p := intPlane ((List.range n).map fun i => rescale (intAcc j.attr za zb la lb (j.feed i)) j.mult j.shift j.zo t.fmt)
      { outs := [{ cap := out, fmt := t.fmt, scale := t.scale, plane := p }], loads := loads, arr := some arr }
    else
      let sa := if q then num32 qs else a.scale
      let p := if 3 ≤ At.mode j.attr then sa else sa.mulR b.scale
      let accs := (List.range n).map fun i => floatAcc j.attr eff la lb (j.feed i)
      let ys := ((List.range n).zip accs).map fun x => some (m.epilogue j caps out x.1 (x.2.1.mulR p))
      let pl := t.store ys
      -- each table product that overflows counts one non-finite event (R96)
      let more := (accs.map (·.2)).sum
      { outs := [{ cap := out, fmt := t.fmt, scale := t.scale,
                   plane := { pl with stat := { pl.stat with nNf := pl.stat.nNf + more } } }], loads := loads, arr := some arr,
        status := if pl.bad then ST_BAD_SCALE else ST_OK }
  | _, _, _ => {}

/-! ### Checks common to all operations -/

/-- Tensors that an operation reads obey R58 (check 8.5), an output that it also reads among them. -/
def scalesOk (r : W1024) (caps : List Cap) : Bool :=
  caps.all fun x => (useOf (rowOf r) x.slot == .wr && !alsoReads r x.slot) || x.scaleOk

/-- Outputs agree with their auxiliary planes in the format they will be written in (R481, check 8.2), and hold no codes. -/
def outsOk (r : W1024) (row : OpRow) (caps : List Cap) : Bool :=
  caps.all fun x => useOf row x.slot != .wr || (auxAgrees (Ds.aux x.desc) (outFmt r caps x) && outFmt r caps x != CODE4)

/-- No step of the owner is open while an operation writes a double-buffered tensor of its context (R307, R308, check 9). -/
def Mod.stepFree (m : Mod) (row : OpRow) (caps : List Cap) : Bool :=
  caps.all fun x => useOf row x.slot == .rd || !Ds.ab x.desc || !m.stepOpen x.owner

/-! ### Checks of matrix operations -/

/-- The captured tensor of a slot, for a record whose required slots are known to hold tensors. -/
def capFmt (caps : List Cap) (s : Nat) : Nat := match capOf caps s with | some x => x.fmt | none => 15

/-- Whether a tensor has the extents `l`. -/
def capIs (caps : List Cap) (s : Nat) (l : List Nat) : Bool :=
  match capOf caps s with | some x => x.exts == l | none => true

/-- Rank of the tensor of a slot. -/
def capRank (caps : List Cap) (s : Nat) : Nat := match capOf caps s with | some x => x.rank | none => 0

/-- Checks 8.2 of a matrix operation: operands, bias and residual, output. -/
def matFormats (r : W1024) (attr : Nat) (caps : List Cap) : Bool :=
  let req := match capOf caps 0 with | some a => Pl.reqFmt (Ds.plan a.desc) | none => 15
  let fa := capFmt caps 0
  let fo := match capOf caps 2 with | some o => Pl.reqFmt (Ds.plan o.desc) | none => 15
  arrFormats attr req fa (capFmt caps 1) && outsOk r (rowOf r) caps
  && capFmt caps 3 != CODE4 && capFmt caps 4 != CODE4
  && (!(decide (3 ≤ At.mode attr) && fa == INT8) || fo == INT8 || fo == INT32)

/-- Checks 8.4 of a matrix operation of reduction length `k`. -/
def matAttrs (attr epi : Nat) (accum : Bool) (k : Nat) (caps : List Cap) : Bool :=
  let req := match capOf caps 0 with | some a => Pl.reqFmt (Ds.plan a.desc) | none => 15
  let fa := capFmt caps 0
  let z (s : Nat) : Int := match capOf caps s with | some x => Ds.zeroPt x.desc | none => 0
  decide (2 ^ At.split attr ≤ ceilDiv k (groupSize attr (effFmt attr req fa (capFmt caps 1))))
  && !(At.mode attr == 2 && At.dataflow attr == 0)
  && (!arrInt attr fa || (epi == 0 && !accum))
  && (!(arrInt attr fa && At.mode attr != 1) || (z 0 == 0 && z 1 == 0))

/-- Check 8.5: R58 and, for a float semiring, equal scales (R98). -/
def matScales (r : W1024) (attr : Nat) (caps : List Cap) : Bool :=
  scalesOk r caps
  && (!(decide (3 ≤ At.mode attr) && capFmt caps 0 != INT8)
      || (match capOf caps 0, capOf caps 1 with
          | some a, some b => Ds.scale a.desc == Ds.scale b.desc
          | _, _ => true))

/-! ### `MATMUL` and `BMATMUL` (R174) -/

namespace MmRec
def m (r : W1024) : Nat := Rc.pf r 0 0 32
def n (r : W1024) : Nat := Rc.pf r 0 32 32
def k (r : W1024) : Nat := Rc.pf r 1 0 32
def attr (r : W1024) : Nat := Rc.pf r 1 32 16
def transA (r : W1024) : Bool := (Rc.p r 1).testBit 48
def transB (r : W1024) : Bool := (Rc.p r 1).testBit 49
def epi (r : W1024) : Nat := Rc.pf r 1 51 3
def act (r : W1024) : Nat := Rc.pf r 1 54 6
def batch (r : W1024) : Nat := Rc.pf r 2 0 32
end MmRec

/-- Whether the extents of A, B and the output agree with the record. -/
def mmShapes (r : W1024) (caps : List Cap) : Bool :=
  let m := MmRec.m r
  let n := MmRec.n r
  let k := MmRec.k r
  let bt := if Rc.opcode r = 0x10 then 1 else MmRec.batch r
  let ok (s : Nat) (x y : Nat) : Bool := capIs caps s [x, y, bt, 1] || (capRank caps s == 2 && capIs caps s [x, y, 1, 1])
  decide (1 ≤ m) && decide (m ≤ 16777216) && decide (1 ≤ n) && decide (n ≤ 16777216) && decide (1 ≤ k)
  && decide (k ≤ 2147483648)
  && (if Rc.opcode r = 0x10 then MmRec.batch r == 0 else decide (1 ≤ MmRec.batch r) && decide (MmRec.batch r ≤ 65535))
  && (if MmRec.transA r then ok 0 m k else ok 0 k m) && (if MmRec.transB r then ok 1 k n else ok 1 n k)
  && capIs caps 2 [n, m, bt, 1]
  && ((capOf caps 3).isNone || (capRank caps 3 == 1 && capIs caps 3 [n, 1, 1, 1])) && capIs caps 4 [n, m, bt, 1]

/-- Check 8.4 beyond `matAttrs`: the output and the rescale of `INTEGER` mode, zero words in the other modes. -/
def mmInt (r : W1024) (caps : List Cap) : Bool :=
  let fo := match capOf caps 2 with | some o => Pl.reqFmt (Ds.plan o.desc) | none => 15
  let zo := signed 32 (Rc.pf r 4 0 32)
  if At.mode (MmRec.attr r) = 1 then fmtInt fo && decide (intLo fo ≤ zo) && decide (zo ≤ intHi fo)
  else Rc.p r 3 == 0 && Rc.p r 4 == 0

/-- Checks 8 and 9 of `MATMUL` and `BMATMUL`. -/
def mmCheck (m : Mod) (r : W1024) (caps : List Cap) : Status :=
  let a := MmRec.attr r
  if !(At.ok a && epiOk (MmRec.epi r) (MmRec.act r)) then ST_BAD_ATTR
  else if !matFormats r a caps then ST_BAD_FORMAT
  else if !mmShapes r caps then ST_BAD_SHAPE
  else if !(matAttrs a (MmRec.epi r) (accumOf r) (MmRec.k r) caps && mmInt r caps) then ST_BAD_ATTR
  else if !matScales r a caps then ST_BAD_SCALE
  else if !m.stepFree (rowOf r) caps then ST_STEP_OPEN
  else ST_OK

/-- The job of a checked `MATMUL` or `BMATMUL`. -/
def mmJob (r : W1024) (caps : List Cap) : MatJob :=
  let mm := MmRec.m r
  let n := MmRec.n r
  let k := MmRec.k r
  let plane (s : Nat) (b sz : Nat) : Nat := if capRank caps s = 2 then 0 else b * sz
  { attr := MmRec.attr r, dims := (mm, n, k), epi := MmRec.epi r, act := MmRec.act r, accum := accumOf r,
    feed := fun i =>
      let c := i % n
      let row := i / n % mm
      let b := i / (n * mm)
      (List.range k).map fun kk =>
        (some (plane 0 b (mm * k) + if MmRec.transA r then row + mm * kk else kk + k * row),
          plane 1 b (n * k) + if MmRec.transB r then kk + k * c else c + n * kk),
    biasAt := fun i => i % n,
    mult := if At.mode (MmRec.attr r) = 1 then signed 32 (Rc.pf r 3 0 32) else 1,
    shift := if At.mode (MmRec.attr r) = 1 then Rc.pf r 3 32 6 else 0,
    zo := if At.mode (MmRec.attr r) = 1 then signed 32 (Rc.pf r 4 0 32) else 0 }

/-! ### `CONV` (R86-R89, R175) -/

namespace CvRec
def batch (r : W1024) : Nat := Rc.pf r 0 0 16
def cIn (r : W1024) : Nat := Rc.pf r 0 16 16
def cOut (r : W1024) : Nat := Rc.pf r 0 32 16
def groups (r : W1024) : Nat := Rc.pf r 0 48 16
/-- Parameters of dimension `d`: 0 D, 1 H, 2 W. -/
def inExt (r : W1024) (d : Nat) : Nat := Rc.pf r (d + 1) 0 20
def kExt (r : W1024) (d : Nat) : Nat := Rc.pf r (d + 1) 20 6 + 1
def stride (r : W1024) (d : Nat) : Nat := Rc.pf r (d + 1) 26 5 + 1
def dil (r : W1024) (d : Nat) : Nat := Rc.pf r (d + 1) 31 5 + 1
def padLo (r : W1024) (d : Nat) : Nat := Rc.pf r (d + 1) 36 8
def padHi (r : W1024) (d : Nat) : Nat := Rc.pf r (d + 1) 44 8
def dims (r : W1024) : Nat := Rc.pf r 1 52 2
def attr (r : W1024) : Nat := Rc.pf r 4 0 16
def epi (r : W1024) : Nat := Rc.pf r 4 17 3
def act (r : W1024) : Nat := Rc.pf r 4 20 6
/-- Output extent of dimension `d` (R87); 0 where it is less than 1. -/
def outExt (r : W1024) (d : Nat) : Nat :=
  let span := dil r d * (kExt r d - 1) + 1
  let tot := inExt r d + padLo r d + padHi r d
  if tot < span then 0 else (tot - span) / stride r d + 1
def cg (r : W1024) : Nat := cIn r / groups r
def ng (r : W1024) : Nat := cOut r / groups r
/-- Reduction length. -/
def k (r : W1024) : Nat := cg r * kExt r 0 * kExt r 1 * kExt r 2
end CvRec

/-- Whether the extents of a descriptor group the logical extents, fastest first, into consecutive nonempty runs (R88). -/
def isSplit : List Nat → Nat → List Nat → Bool
  | [], acc, es => es == [acc]
  | x :: t, acc, e :: es => (acc == e && isSplit t x es) || isSplit t (acc * x) (e :: es)
  | _ :: _, _, [] => false

/-- Whether the tensor of a slot has extents that split the logical extents `l`. -/
def capSplit (caps : List Cap) (s : Nat) (l : List Nat) : Bool :=
  match capOf caps s, l with
  | some x, y :: t => isSplit t y (x.exts.take x.rank)
  | _, _ => true

/-- Unused dimensions hold their neutral parameters (R86). -/
def cvNeutral (r : W1024) (d : Nat) : Bool :=
  CvRec.inExt r d == 1 && CvRec.kExt r d == 1 && CvRec.stride r d == 1 && CvRec.dil r d == 1 && CvRec.padLo r d == 0
  && CvRec.padHi r d == 0

/-- Check 8.3 of `CONV`. -/
def cvShapes (r : W1024) (caps : List Cap) : Bool :=
  let b := CvRec.batch r
  let o := CvRec.outExt r
  let i := CvRec.inExt r
  let k := CvRec.kExt r
  let oext := [CvRec.cOut r, o 2, o 1, o 0, b]
  decide (CvRec.batch r ≠ 0) && decide (CvRec.cIn r ≠ 0) && decide (CvRec.cOut r ≠ 0) && decide (CvRec.groups r ≠ 0)
  && CvRec.cIn r % CvRec.groups r == 0 && CvRec.cOut r % CvRec.groups r == 0
  && decide (1 ≤ CvRec.dims r)
  && [0, 1, 2].all (fun d => decide (i d ≠ 0) && decide (o d ≠ 0))
  && (decide (3 ≤ CvRec.dims r) || cvNeutral r 0) && (decide (2 ≤ CvRec.dims r) || cvNeutral r 1)
  && decide (CvRec.k r ≤ 262144)
  && capSplit caps 0 [CvRec.cIn r, i 2, i 1, i 0, b] && capSplit caps 2 oext
  && capSplit caps 1 [CvRec.cg r, k 2, k 1, k 0, CvRec.cOut r]
  && ((capOf caps 3).isNone || (capRank caps 3 == 1 && capIs caps 3 [CvRec.cOut r, 1, 1, 1]))
  && (match capOf caps 4, capOf caps 2 with | some x, some y => x.exts == y.exts | _, _ => true)

/-- Checks 8 and 9 of `CONV`. -/
def cvCheck (m : Mod) (r : W1024) (caps : List Cap) : Status :=
  let a := CvRec.attr r
  let fo := match capOf caps 2 with | some o => Pl.reqFmt (Ds.plan o.desc) | none => 15
  if !(At.ok a && epiOk (CvRec.epi r) (CvRec.act r)) then ST_BAD_ATTR
  else if !matFormats r a caps then ST_BAD_FORMAT
  else if !cvShapes r caps then ST_BAD_SHAPE
  else if !(matAttrs a (CvRec.epi r) (accumOf r) (CvRec.k r) caps && (At.mode a != 1 || fo == INT32)) then ST_BAD_ATTR
  else if !matScales r a caps then ST_BAD_SCALE
  else if !m.stepFree (rowOf r) caps then ST_STEP_OPEN
  else ST_OK

/-- Input coordinate of an output coordinate and a kernel index in dimension `d`; none outside the input (R88, R89). -/
def cvPos (r : W1024) (d out kk : Nat) : Option Nat :=
  let p := out * CvRec.stride r d + kk * CvRec.dil r d
  if p < CvRec.padLo r d || CvRec.inExt r d ≤ p - CvRec.padLo r d then none else some (p - CvRec.padLo r d)

/-- Element of the input that output position `mm` and reduction index `kk` of group `q` read. -/
def cvIn (r : W1024) (mm q kk : Nat) : Option Nat :=
  let ow := mm % CvRec.outExt r 2
  let oh := mm / CvRec.outExt r 2 % CvRec.outExt r 1
  let od := mm / (CvRec.outExt r 2 * CvRec.outExt r 1) % CvRec.outExt r 0
  let b := mm / (CvRec.outExt r 2 * CvRec.outExt r 1 * CvRec.outExt r 0)
  let c := kk % CvRec.cg r
  let t := kk / CvRec.cg r
  match cvPos r 0 od (t / (CvRec.kExt r 2 * CvRec.kExt r 1)), cvPos r 1 oh (t / CvRec.kExt r 2 % CvRec.kExt r 1),
        cvPos r 2 ow (t % CvRec.kExt r 2) with
  | some d, some h, some w =>
    some ((((b * CvRec.inExt r 0 + d) * CvRec.inExt r 1 + h) * CvRec.inExt r 2 + w) * CvRec.cIn r + q * CvRec.cg r + c)
  | _, _, _ => none

/-- The job of a checked `CONV`. -/
def cvJob (r : W1024) : MatJob :=
  { attr := CvRec.attr r,
    dims := (CvRec.batch r * CvRec.outExt r 0 * CvRec.outExt r 1 * CvRec.outExt r 2, CvRec.ng r, CvRec.k r),
    epi := CvRec.epi r, act := CvRec.act r, accum := accumOf r,
    feed := fun i =>
      let co := i % CvRec.cOut r
      (List.range (CvRec.k r)).map fun kk =>
        (cvIn r (i / CvRec.cOut r) (co / CvRec.ng r) kk, co * CvRec.k r + kk),
    biasAt := fun i => i % CvRec.cOut r }

/-! ### `ATTN` (R176) -/

namespace AnRec
def seqQ (r : W1024) : Nat := Rc.pf r 0 0 24
def seqK (r : W1024) : Nat := Rc.pf r 0 24 24
def dim (r : W1024) : Nat := Rc.pf r 1 0 9
def heads (r : W1024) : Nat := Rc.pf r 1 9 16
def kv (r : W1024) : Nat := Rc.pf r 1 25 16
def causal (r : W1024) : Bool := (Rc.p r 1).testBit 41
def pFmt (r : W1024) : Nat := Rc.pf r 1 42 4
def c (r : W1024) : Nat := Rc.pf r 2 0 32
def off (r : W1024) : Int := signed 32 (Rc.pf r 2 32 32)
def attr (r : W1024) : Nat := Rc.pf r 3 0 16
end AnRec

/-- Checks 8 and 9 of `ATTN`. -/
def anCheck (m : Mod) (r : W1024) (caps : List Cap) : Status :=
  let a := AnRec.attr r
  let d := AnRec.dim r
  let req := match capOf caps 0 with | some x => Pl.reqFmt (Ds.plan x.desc) | none => 15
  let lse := match capOf caps 5 with | some x => Pl.reqFmt (Ds.plan x.desc) == FP32 | none => true
  if !(At.ok a && At.mode a == 0 && At.split a == 0 && posNormal (AnRec.c r)) then ST_BAD_ATTR
  else if !(arrFormats a req (capFmt caps 0) (capFmt caps 1) && arrFloat (capFmt caps 2)
      && (AnRec.pFmt r == E4M3 || AnRec.pFmt r == BF16) && outsOk r (rowOf r) caps && lse
      && ((capOf caps 4).isNone || capFmt caps 4 == FP32 || capFmt caps 4 == BF16)) then ST_BAD_FORMAT
  else if !(decide (1 ≤ AnRec.seqQ r) && decide (1 ≤ AnRec.seqK r) && decide (16 ≤ d) && decide (d ≤ 256) && d % 16 == 0
      && decide (AnRec.kv r ≠ 0) && decide (AnRec.heads r ≠ 0) && AnRec.heads r % AnRec.kv r == 0
      && capIs caps 0 [d, AnRec.seqQ r, AnRec.heads r, 1] && capIs caps 3 [d, AnRec.seqQ r, AnRec.heads r, 1]
      && capIs caps 1 [d, AnRec.seqK r, AnRec.kv r, 1] && capIs caps 2 [d, AnRec.seqK r, AnRec.kv r, 1]
      && capIs caps 4 [AnRec.seqK r, AnRec.seqQ r, 1, 1] && capIs caps 5 [AnRec.seqQ r, AnRec.heads r, 1, 1]) then ST_BAD_SHAPE
  else if !scalesOk r caps then ST_BAD_SCALE
  else if !m.stepFree (rowOf r) caps then ST_STEP_OPEN
  else ST_OK

/-- Running state of one row: m, l, o. -/
structure AnRow where
  mx : Num
  l : Num
  o : List Num
deriving DecidableEq, Repr

/-- Score of query row `i` of head `h` against key `j`. -/
def anScore (m : Mod) (r : W1024) (caps : List Cap) (q k : LoadA) (eff : Nat) (p : Num) (h i j : Nat) : Num :=
  let d := AnRec.dim r
  let qb := (h * AnRec.seqQ r + i) * d
  let kb := (h / (AnRec.heads r / AnRec.kv r) * AnRec.seqK r + j) * d
  let fd : Feed := (List.range d).map fun x => (some (qb + x), kb + x)
  let s := (num32 (AnRec.c r)).mulR ((floatAcc (AnRec.attr r) eff q k fd).1.mulR p)
  let s := match capOf caps 4 with | some mk => s.addR (m.real mk (i * AnRec.seqK r + j)) | none => s
  if AnRec.causal r && decide ((i : Int) + AnRec.off r < (j : Int)) then .inf true else s

/-- One key block of a row: keys `js` (R176). -/
def anBlock (m : Mod) (r : W1024) (caps : List Cap) (q k v : LoadA) (eff : Nat) (p pv : Num) (h i : Nat) (js : List Nat)
    (st : AnRow) : AnRow :=
  let d := AnRec.dim r
  let ss := js.map (anScore m r caps q k eff p h i)
  let mNew := st.mx.max (vecMax ss)
  if mNew = .inf true then st
  else
    let alpha := (st.mx.addR mNew.neg).exp
    let ps := ss.map fun s => (s.addR mNew.neg).exp
    let pf := AnRec.pFmt r
    let pq := ps.map fun x => decodeF pf (encodeF pf true (if pf = E4M3 then x.mulR (.fin false 256 0) else x)).1
    let vf := joinF pf (asArr (capFmt caps 2))
    let g := groupSize (AnRec.attr r) vf
    let kvh := h / (AnRec.heads r / AnRec.kv r)
    let o := ((List.range d).zip st.o).map fun x =>
      let acc := reduceSum g 0 ((js.zip pq).map fun y => y.2.mul (v.at ((kvh * AnRec.seqK r + y.1) * d + x.1)).1)
      (x.2.mulR alpha).addR (acc.mulR pv)
    { mx := mNew, l := (st.l.mulR alpha).addR (vecSum ps), o := o }

/-- One row of one head. -/
def anRow (m : Mod) (r : W1024) (caps : List Cap) (q k v : LoadA) (eff : Nat) (p pv : Num) (h i : Nat) : AnRow :=
  let n := AnRec.seqK r
  (List.range (ceilDiv n 128)).foldl (fun st b =>
    anBlock m r caps q k v eff p pv h i ((List.range (min 128 (n - 128 * b))).map (128 * b + ·)) st)
    { mx := .inf true, l := .zero, o := List.replicate (AnRec.dim r) .zero }

/-- A run of `ATTN`. -/
def Mod.attnRun (m : Mod) (r : W1024) (caps : List Cap) (ov : Over) : RunRes :=
  match capOf caps 0, capOf caps 1, capOf caps 2, capOf caps 3 with
  | some a, some b, some v, some out =>
    let qd := At.qload (AnRec.attr r)
    let (req, qs) := ov.reqOf a
    let eff := effFmt (AnRec.attr r) req a.fmt b.fmt
    let la := m.loadA a qd eff qs
    let lb := m.loadB b
    let lv := m.loadB v
    let p := (if qd then num32 qs else a.scale).mulR b.scale
    let ps := if AnRec.pFmt r = E4M3 then Num.fin false 1 (-8) else .one
    let rows := (List.range (AnRec.heads r * AnRec.seqQ r)).map fun x =>
      anRow m r caps la lb lv eff p (ps.mulR v.scale) (x / AnRec.seqQ r) (x % AnRec.seqQ r)
    let ys := rows.flatMap fun s => s.o.map fun y =>
      some (if s.l.isZero then .zero else y.mulR (Num.one.div s.l))
    let t := ov.target out
    let pl := t.store ys
    let lse : List OutW := match capOf caps 5 with
      | some x =>
        let t := x.target
        [{ cap := x, fmt := t.fmt, scale := t.scale,
           plane := t.store (rows.map fun s => some (if s.l.isZero then .inf true else s.mx.addR s.l.log)) }]
      | none => []
    { outs := { cap := out, fmt := t.fmt, scale := t.scale, plane := pl } :: lse,
      loads := loadStats a qd eff la ++ loadStats b false eff lb ++ loadStats v false eff lv,
      arr := some (arrayLoad (AnRec.attr r) eff (AnRec.seqQ r) (AnRec.seqK r) (AnRec.dim r) la lb),
      status := if pl.bad then ST_BAD_SCALE else ST_OK }
  | _, _, _, _ => {}

end Sys2Proof.Machine
end

