-- ==== Sys2Proof/Machine/Vector.lean ====
section
/-! DEFINITION. Vector operations (R177-R183): `ELTWISE`, `REDUCE`, `NORM`, `SOFTMAX`. -/

namespace Sys2Proof.Machine

/-- An output written with a target, and the status a value without meaning leads to (R42). -/
def vecOut (out : Cap) (t : Target) (ys : List Num) : OutW := { cap := out, fmt := t.fmt, scale := t.scale, plane := t.store (ys.map some) }

/-- The result of a run with these outputs. -/
def vecRes (outs : List OutW) : RunRes :=
  { outs := outs, status := if outs.any (·.plane.bad) then ST_BAD_SCALE else ST_OK }

/-- An output of integers to which no scale applies (R101). -/
def intOut (out : Cap) (t : Target) (l : List (Nat × Ev)) : OutW := { cap := out, fmt := t.fmt, scale := t.scale, plane := intPlane l }

/-- No input is CODE4 (R29). -/
def noCodes (caps : List Cap) : Bool := caps.all fun x => x.fmt != CODE4

/-- Requested format of the output in a slot. -/
def capReq (caps : List Cap) (s : Nat) : Nat := match capOf caps s with | some x => Pl.reqFmt (Ds.plan x.desc) | none => 15

/-- Extents of the tensor of a slot. -/
def capExts (caps : List Cap) (s : Nat) : List Nat := match capOf caps s with | some x => x.exts | none => []

/-! ### `ELTWISE` (R178) -/

namespace EwRec
def fn (r : W1024) : Nat := Rc.pf r 0 0 6
def c (r : W1024) : Nat := Rc.pf r 0 32 32
def c2 (r : W1024) : Nat := Rc.pf r 1 0 32
def shift (r : W1024) : Nat := Rc.pf r 1 32 6
def zo (r : W1024) : Int := signed 32 (Rc.pf r 2 0 32)
end EwRec

/-- Codes of Table 6.5. -/
def fnOk (f : Nat) : Bool := decide (f ≤ 0x13) || (decide (0x20 ≤ f) && decide (f ≤ 0x29))

/-- Element of an input that output element `i` takes: broadcast of one element or of a row (R178). -/
def castIdx (x out : Cap) (i : Nat) : Nat := if x.count = out.count then i else if x.count = 1 then 0 else i % out.ext 0

/-- Whether an input's count suits the output. -/
def castOk (x out : Cap) : Bool := x.count == 1 || x.count == out.ext 0 || x.count == out.count

/-- Checks 8 and 9 of `ELTWISE`. -/
def ewCheck (m : Mod) (r : W1024) (caps : List Cap) : Status :=
  let f := EwRec.fn r
  if !fnOk f then ST_BAD_ATTR
  else if !(noCodes (caps.filter (·.slot != 3)) && outsOk r (rowOf r) caps
      && (f != 0x13 || (capFmt caps 0 == INT32 && fmtInt (capReq caps 3)))) then ST_BAD_FORMAT
  else if !(match capOf caps 3 with | some o => (caps.filter (·.slot != 3)).all fun x => castOk x o | none => true) then ST_BAD_SHAPE
  else if !scalesOk r caps then ST_BAD_SCALE
  else if !m.stepFree (rowOf r) caps then ST_STEP_OPEN
  else ST_OK

/-- A run of `ELTWISE`. -/
def Mod.ewRun (m : Mod) (r : W1024) (caps : List Cap) (ov : Over) : RunRes :=
  match capOf caps 0, capOf caps 3 with
  | some x, some out =>
    let t := ov.target out
    if EwRec.fn r = 0x13 then
      { outs := [intOut out t ((List.range out.count).map fun i =>
          rescale (signed 32 (m.code x (castIdx x out i)) - Ds.zeroPt x.desc) (signed 32 (EwRec.c2 r)) (EwRec.shift r)
            (EwRec.zo r) t.fmt)] }
    else
      let inp (s i : Nat) : Num := match capOf caps s with | some y => m.real y (castIdx y out i) | none => .zero
      vecRes [vecOut out t ((List.range out.count).map fun i =>
        vecFn (EwRec.fn r) (inp 0 i) (inp 1 i) (inp 2 i) (num32 (EwRec.c r)) (num32 (EwRec.c2 r)))]
  | _, _ => {}

/-! ### `REDUCE` (R179) -/

namespace RdRec
def fn (r : W1024) : Nat := Rc.pf r 0 0 3
def axis (r : W1024) : Nat := Rc.pf r 0 4 2
end RdRec

/-- Distance in elements of consecutive indices on axis `a`. -/
def strideOf (es : List Nat) (a : Nat) : Nat := (es.take a).foldl (· * ·) 1

/-- Elements that reduce into output element `i`. -/
def reduceIdx (es : List Nat) (a i : Nat) : List Nat :=
  let s := strideOf es a
  let n := es.getD a 1
  (List.range n).map fun k => i % s + k * s + i / s * (s * n)

/-- Index of the first NaN, else the lowest index that holds the extreme value (R47). -/
def argOf (ext : List Num → Num) (l : List Num) : Nat :=
  match l.findIdx? Num.isNan with
  | some i => i
  | none => (l.findIdx? fun x => x.same (ext l)).getD 0

/-- The float reductions. -/
def reduceFn (f : Nat) (l : List Num) : Num :=
  match f with
  | 0 => vecSum l
  | 1 => vecSum (l.map fun x => x.mulR x)
  | 2 => (vecSum l).mulR (Num.one.div (.ofInt l.length))
  | 3 => vecMax l
  | _ => vecMin l

/-- Checks 8 and 9 of `REDUCE`. -/
def rdCheck (m : Mod) (r : W1024) (caps : List Cap) : Status :=
  let f := RdRec.fn r
  let es := capExts caps 0
  if f = 7 then ST_BAD_ATTR
  else if !(capFmt caps 0 != CODE4 && outsOk r (rowOf r) caps && (f < 5 || capReq caps 1 == INT32)) then ST_BAD_FORMAT
  else if RdRec.axis r < capRank caps 0 && !capIs caps 1 (es.set (RdRec.axis r) 1) then ST_BAD_SHAPE
  else if capRank caps 0 ≤ RdRec.axis r then ST_BAD_ATTR
  else if !scalesOk r caps then ST_BAD_SCALE
  else if !m.stepFree (rowOf r) caps then ST_STEP_OPEN
  else ST_OK

/-- A run of `REDUCE`. -/
def Mod.rdRun (m : Mod) (r : W1024) (caps : List Cap) (ov : Over) : RunRes :=
  match capOf caps 0, capOf caps 1 with
  | some x, some out =>
    let t := ov.target out
    let row (i : Nat) : List Num := (reduceIdx x.exts (RdRec.axis r) i).map (m.real x)
    if 5 ≤ RdRec.fn r then
      let ext := if RdRec.fn r = 5 then vecMax else vecMin
      let pl := intPlane ((List.range out.count).map fun i => (argOf ext (row i), {}))
      -- an output whose row holds a value without meaning stays unwritten (R42)
      let cs := ((List.range out.count).zip pl.codes).map fun c => if (row c.1).contains .bad then none else c.2
      { outs := [{ cap := out, fmt := t.fmt, scale := t.scale, plane := { pl with codes := cs } }],
        status := if cs.any (·.isNone) then ST_BAD_SCALE else ST_OK }
    else vecRes [vecOut out t ((List.range out.count).map fun i => reduceFn (RdRec.fn r) (row i))]
  | _, _ => {}

/-! ### `NORM` (R180) -/

namespace NmRec
def rms (r : W1024) : Bool := (Rc.p r 0).testBit 0
def eps (r : W1024) : Nat := Rc.pf r 0 32 32
end NmRec

/-- One normalised row: mean, σ and values; each operation rounds once. -/
def normRow (rms : Bool) (eps : Num) (x gamma beta : List Num) : Num × Num × List Num :=
  let inv := Num.one.div (.ofInt x.length)
  let mu := if rms then .zero else (vecSum x).mulR inv
  let d := if rms then x else x.map fun v => v.addR mu.neg
  let var := (vecSum (d.map fun v => v.mulR v)).mulR inv
  let sg := tableNum 0x0C (var.addR eps)
  (mu, sg, ((List.range x.length).zip d).map fun v =>
    ((v.2.mulR sg).mulR (gamma.getD v.1 .one)).addR (beta.getD v.1 .zero))

/-- Checks 8 and 9 of `NORM`. -/
def nmCheck (m : Mod) (r : W1024) (caps : List Cap) : Status :=
  let es := capExts caps 0
  let n := es.getD 0 1
  let vecOk (s : Nat) : Bool := (capOf caps s).isNone || (capRank caps s == 1 && capIs caps s [n, 1, 1, 1])
  if !(noCodes (caps.filter fun x => decide (x.slot ≤ 2)) && outsOk r (rowOf r) caps
      && ((capOf caps 4).isNone || capReq caps 4 == FP32)) then ST_BAD_FORMAT
  else if !(vecOk 1 && vecOk 2 && capIs caps 3 es
      && (match capOf caps 0 with | some x => capIs caps 4 [2, x.count / max n 1, 1, 1] | none => true)) then ST_BAD_SHAPE
  else if !posNormal (NmRec.eps r) then ST_BAD_ATTR
  else if !scalesOk r caps then ST_BAD_SCALE
  else if !m.stepFree (rowOf r) caps then ST_STEP_OPEN
  else ST_OK

/-- All elements of the tensor of an optional slot. -/
def Mod.slotVals (m : Mod) (caps : List Cap) (s : Nat) : List Num :=
  match capOf caps s with | some x => (List.range x.count).map (m.real x) | none => []

/-- A run of `NORM`. -/
def Mod.nmRun (m : Mod) (r : W1024) (caps : List Cap) (ov : Over) : RunRes :=
  match capOf caps 0, capOf caps 3 with
  | some x, some out =>
    let n := x.ext 0
    let rows := (List.range (x.count / max n 1)).map fun i =>
      normRow (NmRec.rms r) (num32 (NmRec.eps r)) ((List.range n).map fun k => m.real x (i * n + k))
        (m.slotVals caps 1) (m.slotVals caps 2)
    let o := vecOut out (ov.target out) (rows.flatMap fun y => y.2.2)
    match capOf caps 4 with
    | some st => vecRes [o, vecOut st st.target (rows.flatMap fun y => [y.1, y.2.1])]
    | none => vecRes [o]
  | _, _ => {}

/-! ### `SOFTMAX` (R181) -/

namespace SmRec
def causal (r : W1024) : Bool := (Rc.p r 0).testBit 0
def c (r : W1024) : Nat := Rc.pf r 0 32 32
def off (r : W1024) : Int := signed 32 (Rc.pf r 1 0 32)
end SmRec

/-- Whether the mask has one of its two shapes. -/
def maskOk (caps : List Cap) : Bool :=
  match capOf caps 0, capOf caps 1 with
  | some x, some k => k.exts == x.exts || (k.rank == 2 && k.exts == [x.ext 0, x.ext 1, 1, 1])
  | _, _ => true

/-- Checks 8 and 9 of `SOFTMAX`. -/
def smCheck (m : Mod) (r : W1024) (caps : List Cap) : Status :=
  if !(noCodes (caps.filter fun x => decide (x.slot ≤ 1)) && outsOk r (rowOf r) caps) then ST_BAD_FORMAT
  else if !(maskOk caps && capIs caps 2 (capExts caps 0)) then ST_BAD_SHAPE
  else if !scalesOk r caps then ST_BAD_SCALE
  else if !m.stepFree (rowOf r) caps then ST_STEP_OPEN
  else ST_OK

/-- One row of scores: subtract the maximum, `EXP`, multiply by the reciprocal of the sum; a fully masked row gives +0. -/
def softRow (s : List Num) : List Num :=
  let mx := vecMax s
  if mx = .inf true then s.map fun _ => .zero
  else
    let e := s.map fun x => (x.addR mx.neg).exp
    let q := Num.one.div (vecSum e)
    e.map fun x => x.mulR q

/-- A run of `SOFTMAX`. -/
def Mod.smRun (m : Mod) (r : W1024) (caps : List Cap) (ov : Over) : RunRes :=
  match capOf caps 0, capOf caps 2 with
  | some x, some out =>
    let n := x.ext 0
    let rows := (List.range (x.count / max n 1)).map fun i => softRow ((List.range n).map fun j =>
      let s := (m.real x (i * n + j)).mulR (num32 (SmRec.c r))
      let s := match capOf caps 1 with
        | some k => s.addR (m.real k (if k.count = x.count then i * n + j else i % x.ext 1 * n + j))
        | none => s
      if SmRec.causal r && decide (((i % x.ext 1 : Nat) : Int) + SmRec.off r < (j : Int)) then
        (if s = .bad then .bad else .inf true) else s)
    vecRes [vecOut out (ov.target out) rows.flatten]
  | _, _ => {}

end Sys2Proof.Machine
end

