-- ==== Sys2Proof/Machine/Move.lean ====
section
/-! DEFINITION. Data movement (R184, R185, R482): `COPY`, `GATHER`, `SCATTER`, `TRANSPOSE`, `HOST_XFER`; host windows
(R227-R229); prefetch lists (R164-R166). -/

namespace Sys2Proof.Machine

/-! ### Reading part of a tensor -/

/-- Byte ranges that elements [`off`, `off` + `n`) of a tensor occupy: data, and scale words or codebook. -/
def Cap.ranges (x : Cap) (off n : Nat) : List (Nat × Nat) :=
  let w := fmtWidth x.fmt
  let a := off * w / 8
  let b := ceilDiv ((off + n) * w) 8
  (if n = 0 then [] else [(x.base + a, b - a)])
  ++ (if x.fmt = G16 then [(x.base + Ds.auxOff x.desc + off / 32768 * 4, (ceilDiv (off + n) 32768 - off / 32768) * 4)]
      else if x.fmt = CODE4 then [(x.base + Ds.auxOff x.desc, 32)] else [])

/-- Whether a word of those elements is poisoned. -/
def Mod.poisonedPart (m : Mod) (x : Cap) (off n : Nat) : Bool :=
  !x.host && (x.ranges off n).any fun r => m.poisonedIn r.1 r.2

/-- The accesses that read those elements, in the mode of the region (R204). -/
def Mod.readPart (m : Mod) (x : Cap) (off n : Nat) : Mod :=
  if x.host then m else (x.ranges off n).foldl (fun m r => m.reach (Rgn.fine x.rgn) .rd r.1 r.2) m

/-! ### One move (R482) -/

/-- Target of a move: whole writes take the plan, partial ones the present format and scale. -/
def moveTarget (r : W1024) (ov : Over) (dst : Cap) : Target := if wholeWrite r dst.desc then ov.target dst else dst.present

/-- Whether element bits move unchanged. -/
def movesBits (r : W1024) (ov : Over) (src dst : Cap) : Bool :=
  src.fmt == (moveTarget r ov dst).fmt && (wholeWrite r dst.desc || Ds.scale src.desc == Ds.scale dst.desc)

/-- Upper nibble of the last byte of a tensor with an odd count of 4-bit elements. -/
def Reader.tail (rd : Reader) (x : Cap) : Option Nat :=
  if fmtWidth x.fmt = 4 && x.count % 2 == 1 then some ((rd (x.base + x.count / 2)).toNat / 16) else none

/-- Codes and scale words laid over a plane: where `l` has one it stands. -/
def overlay (l base : List (Option Nat)) : List (Option Nat) := (l.zip base).map fun x => x.1.orElse fun _ => x.2

/-- Element bits that move, for `from_` as in `moveRes`; an element of the zero row holds the zero point. -/
def moveCodes (rd : Reader) (src : Cap) (from_ : List (Option (Option Nat))) : List (Option Nat) :=
  let zc := if fmtInt src.fmt then unsigned (fmtWidth src.fmt) (Ds.zeroPt src.desc) else 0
  from_.map fun e => e.map fun i => match i with | some i => rd.code src i | none => zc

/-- Whether chunk `k` of a list of elements is moved as a whole. -/
def chunkWhole (from_ : List (Option (Option Nat))) (k : Nat) : Bool :=
  ((from_.drop (32768 * k)).take 32768).all (·.isSome)

/-- The result of a move: for each destination element the source element it takes (none: left as it is; `some none`: the
zero row of R185). `chunks` gives, for a G16 move of whole chunks, the source chunk of each destination chunk; a chunk that is
moved in part is quantised again, so that its other elements keep their meaning. The upper nibble of a last odd element moves
with that element when it is the source's last as well (R32). -/
def moveRes (old rd : Reader) (r : W1024) (ov : Over) (src dst : Cap) (from_ : List (Option (Option Nat)))
    (chunks : Option (List (Option Nat))) : RunRes :=
  let t := moveTarget r ov dst
  let whole := wholeWrite r dst.desc
  let ys := from_.map fun e => e.map fun i => match i with | some i => rd.real src i | none => .zero
  let tail := if from_.getLast? == some (some (some (src.count - 1))) then rd.tail src else none
  if movesBits r ov src dst && src.fmt != G16 then
    { outs := [{ cap := dst, fmt := t.fmt, scale := Ds.scale src.desc, plane := { codes := moveCodes rd src from_ },
                 tail := tail, publish := whole }] }
  else
    let conv (ys : List (Option Num)) : Plane := t.store ys (old.real dst)
    let p := match chunks with
      | some l =>
        if movesBits r ov src dst then
          let n := ys.length
          let wholes := (List.range (ceilDiv n 32768)).map (chunkWhole from_)
          let part := conv (((List.range n).zip ys).map fun y => if wholes.getD (y.1 / 32768) false then none else y.2)
          let raw := ((List.range n).zip (moveCodes rd src from_)).map fun c => if wholes.getD (c.1 / 32768) false then c.2 else none
          { part with codes := overlay raw part.codes,
                      scales := overlay ((wholes.zip l).map fun x => if x.1 then x.2.map (rd.chunkScale src) else none) part.scales }
        else conv ys
      | none => conv ys
    { outs := [{ cap := dst, fmt := t.fmt, scale := t.scale, plane := p, publish := whole }],
      status := if p.bad then ST_BAD_SCALE else ST_OK }

/-! ### `COPY` -/

namespace CpRec
def srcOff (r : W1024) : Nat := if Rc.pf r 2 0 40 = 0 then 0 else Rc.pf r 0 0 40
def dstOff (r : W1024) : Nat := if Rc.pf r 2 0 40 = 0 then 0 else Rc.pf r 1 0 40
def count (r : W1024) (src : Cap) : Nat := if Rc.pf r 2 0 40 = 0 then src.count else Rc.pf r 2 0 40
end CpRec

/-- Whether an offset suits a format: even for 4-bit elements, whole chunks for G16. -/
def offOk (f off : Nat) : Bool := (fmtWidth f != 4 || off % 2 == 0) && (f != G16 || off % 32768 == 0)

/-- Checks 8 and 9 of `COPY`. -/
def cpCheck (m : Mod) (r : W1024) (caps : List Cap) : Status :=
  match capOf caps 0, capOf caps 1 with
  | some src, some dst =>
    let n := CpRec.count r src
    if !outsOk r (rowOf r) caps then ST_BAD_FORMAT
    else if (Rc.pf r 2 0 40 = 0 && src.count != dst.count)
      || decide (src.count < CpRec.srcOff r + n) || decide (dst.count < CpRec.dstOff r + n)
      || !offOk src.fmt (Rc.pf r 0 0 40) || !offOk (outFmt r caps dst) (Rc.pf r 1 0 40) then ST_BAD_SHAPE
    else if !(scalesOk r caps && (wholeWrite r dst.desc || dst.scaleOk)) then ST_BAD_SCALE
    else if !m.stepFree (rowOf r) caps then ST_STEP_OPEN
    else ST_OK
  | _, _ => ST_BAD_DESC

/-- A run of `COPY` that reads its source through `rd`. -/
def cpRun (old rd : Reader) (r : W1024) (caps : List Cap) (ov : Over) : RunRes :=
  match capOf caps 0, capOf caps 1 with
  | some src, some dst =>
    let so := CpRec.srcOff r
    let d := CpRec.dstOff r
    let n := CpRec.count r src
    let idx := (List.range dst.count).map fun i => if d ≤ i && i < d + n then some (some (so + (i - d))) else none
    let ch := (List.range (ceilDiv dst.count 32768)).map fun k =>
      if d / 32768 ≤ k && k < ceilDiv (d + n) 32768 then some (so / 32768 + (k - d / 32768)) else none
    moveRes old rd r ov src dst idx (some ch)
  | _, _ => {}

/-! ### `GATHER`, `SCATTER`, `TRANSPOSE` -/

/-- Index `i` of an INT32 index tensor. -/
def Mod.index (m : Mod) (x : Cap) (i : Nat) : Int := signed 32 (m.code x i)

/-- Positions whose index lies outside [0, `rows`). -/
def Mod.badIdx (m : Mod) (x : Cap) (rows : Nat) : List Nat :=
  (List.range x.count).filter fun i => m.index x i < 0 || (rows : Int) ≤ m.index x i

/-- Adds what R185 says of out-of-range indices to a run. -/
def withIndex (strict : Bool) (l : List Nat) (res : RunRes) : RunRes :=
  { res with index := l,
             status := if strict && !l.isEmpty && res.status = ST_OK then ST_INDEX_RANGE else res.status }

/-- Checks 8 and 9 common to `GATHER` (table 0, index 1, out 2) and `SCATTER` (source 0, index 1, table 2). -/
def gsCheck (m : Mod) (r : W1024) (caps : List Cap) (table rows : Nat) : Status :=
  match capOf caps table, capOf caps rows, capOf caps 1 with
  | some t, some x, some ix =>
    if !(ix.fmt == INT32 && noCodes (caps.filter (·.slot != 2)) && outsOk r (rowOf r) caps) then ST_BAD_FORMAT
    else if !(t.rank == 2 && ix.rank == 1 && x.exts == [t.ext 0, ix.count, 1, 1]) then ST_BAD_SHAPE
    else if !(scalesOk r caps && caps.all fun c => wholeWrite r c.desc || c.scaleOk) then ST_BAD_SCALE
    else if !m.stepFree (rowOf r) caps then ST_STEP_OPEN
    else ST_OK
  | _, _, _ => ST_BAD_DESC

/-- Bit 0 of P0 of `GATHER` and `SCATTER`. -/
def strictOf (r : W1024) : Bool := (Rc.p r 0).testBit 0

/-- A run of `GATHER`. -/
def Mod.gaRun (m : Mod) (r : W1024) (caps : List Cap) (ov : Over) : RunRes :=
  match capOf caps 0, capOf caps 1, capOf caps 2 with
  | some t, some ix, some out =>
    let w := t.ext 0
    let bad := m.badIdx ix (t.ext 1)
    let idx := (List.range out.count).map fun e =>
      if bad.contains (e / w) then some none else some (some ((m.index ix (e / w)).toNat * w + e % w))
    withIndex (strictOf r) bad (moveRes m.rdByte m.rdByte r ov t out idx none)
  | _, _, _ => {}

/-- Whether `GATHER` reads a poisoned word: the index, or a row it names. -/
def Mod.gaPoison (m : Mod) (caps : List Cap) : Bool :=
  match capOf caps 0, capOf caps 1 with
  | some t, some ix =>
    m.poisonedCap ix || (List.range ix.count).any fun i =>
      let k := m.index ix i
      decide (0 ≤ k) && decide (k < (t.ext 1 : Int)) && m.poisonedPart t (k.toNat * t.ext 0) (t.ext 0)
  | _, _ => false

/-- The accesses of a gather: its indices, and of its table the rows that they name. -/
def Mod.readRows (m : Mod) (caps : List Cap) : Mod :=
  match capOf caps 0, capOf caps 1 with
  | some t, some ix =>
    m.each (List.range ix.count) (fun m i =>
      let k := m.index ix i
      if 0 ≤ k && k < (t.ext 1 : Int) then m.readPart t (k.toNat * t.ext 0) (t.ext 0) else m) |>.readCap ix
  | _, _ => m

/-- The statistics of converting the source elements `l` into a target: those of rows that a later row replaces. -/
def lostStat (rd : Reader) (t : Target) (src : Cap) (l : List Nat) : Stat :=
  l.foldl (fun st i => (t.put st (rd.real src i)).2) {}

/-- The sum of two gathered statistics. -/
def Stat.plus (a b : Stat) : Stat :=
  { amax := ((num32 a.amax).max (num32 b.amax)).pat32, nVal := a.nVal + b.nVal, nNz := a.nNz + b.nNz, nSat := a.nSat + b.nSat,
    nUf := a.nUf + b.nUf, nOutl := a.nOutl + b.nOutl, nExc := a.nExc + b.nExc, nNf := a.nNf + b.nNf, nOv := a.nOv + b.nOv,
    hist := (a.hist.zip b.hist).map fun x => x.1 + x.2 }

/-- A run of `SCATTER`: rows are written in ascending order, so the last source row that names a table row is the one it keeps;
the rows before it were converted and observed too. -/
def Mod.scRun (m : Mod) (r : W1024) (caps : List Cap) : RunRes :=
  match capOf caps 0, capOf caps 1, capOf caps 2 with
  | some src, some ix, some t =>
    let w := t.ext 0
    let bad := m.badIdx ix (t.ext 1)
    let rowSrc := (List.range (t.ext 1)).map fun (k : Nat) =>
      (List.range ix.count).reverse.find? fun i => m.index ix i == (k : Int)
    let idx := (List.range t.count).map fun e => ((rowSrc.getD (e / w) none).map fun i => some (i * w + e % w))
    let res := moveRes m.rdByte m.rdByte r [] src t idx none
    let lost := (List.range ix.count).filter fun i => !bad.contains i && !rowSrc.contains (some i)
    let more := if movesBits r [] src t || t.fmt = G16 then ({} : Stat)
      else lostStat m.rdByte t.present src (lost.flatMap fun i => (List.range w).map (i * w + ·))
    withIndex (strictOf r) bad { res with outs := res.outs.map fun o =>
      { o with plane := { o.plane with stat := if more = {} then o.plane.stat else o.plane.stat.plus more } } }
  | _, _, _ => {}

/-- Source axis of destination axis `a`. -/
def permAt (r : W1024) (a : Nat) : Nat := Rc.pf r 0 (2 * a) 2

/-- Checks 8 and 9 of `TRANSPOSE`. -/
def tpCheck (m : Mod) (r : W1024) (caps : List Cap) : Status :=
  match capOf caps 0, capOf caps 1 with
  | some src, some dst =>
    let k := src.rank
    let ps := (List.range k).map (permAt r)
    let perm := (List.range k).all (fun a => ps.contains a) && (List.range 4).all fun a => decide (a < k) || permAt r a == 0
    if !(noCodes [src] && outsOk r (rowOf r) caps) then ST_BAD_FORMAT
    else if perm && dst.exts != (List.range 4).map (fun a => if a < k then src.ext (permAt r a) else 1) then ST_BAD_SHAPE
    else if !perm then ST_BAD_ATTR
    else if !scalesOk r caps then ST_BAD_SCALE
    else if !m.stepFree (rowOf r) caps then ST_STEP_OPEN
    else ST_OK
  | _, _ => ST_BAD_DESC

/-- Coordinate of element `e` on axis `a` of extents `es`. -/
def coordOf (es : List Nat) (e a : Nat) : Nat := e / strideOf es a % es.getD a 1

/-- A run of `TRANSPOSE`. -/
def Mod.tpRun (m : Mod) (r : W1024) (caps : List Cap) (ov : Over) : RunRes :=
  match capOf caps 0, capOf caps 1 with
  | some src, some dst =>
    let idx := (List.range dst.count).map fun e =>
      some (some (((List.range src.rank).map fun a => coordOf dst.exts e a * strideOf src.exts (permAt r a)).sum))
    moveRes m.rdByte m.rdByte r ov src dst idx none
  | _, _ => {}

/-! ### Host requests (R227-R229) -/

/-- Sends waiting host reads while fewer than 1,024 are outstanding. -/
def Mod.hostPump (m : Mod) : Mod :=
  let out := (m.pcie.reqs.filter (·.sent)).length
  let go := (m.pcie.reqs.filter (!·.sent)).take (1024 - out)
  let m := go.foldl (fun m q => m.emit (.hostRead q.fn q.tag q.addr q.len (Tab.get false m.pcie.relaxed q.fn))) m
  let tags := go.map (·.tag)
  { m with pcie := { m.pcie with reqs := m.pcie.reqs.map fun q => if tags.contains q.tag then { q with sent := true } else q } }

/-- Queues one host read. -/
def Mod.hostAsk1 (m : Mod) (q : HostReq) : Mod :=
  { m with pcie := { m.pcie with reqs := m.pcie.reqs ++ [{ q with tag := m.pcie.nextTag }], nextTag := m.pcie.nextTag + 1 } }

/-- Queues the reads of byte ranges for a queue's operation or a prefetch list. -/
def Mod.hostAsk (m : Mod) (queue : Nat) (list : Option (Nat × Nat)) (fn : Nat) (rs : List (Nat × Nat)) : Mod :=
  (rs.foldl (fun m r => (hostParts m.pcie.maxRead r.2 r.1 r.2).foldl (fun m p =>
    m.hostAsk1 { tag := 0, queue := queue, list := list, addr := p.1, len := p.2, fn := fn }) m) m).hostPump

/-- The record of a failed host access of context `c`, and its report through Advanced Error Reporting (R229). -/
def Mod.hostAbort (m : Mod) (c : Nat) (queue addr : Nat) : Mod :=
  { m with pcie := { m.pcie with aer := m.pcie.aer ++ [(m.requester c, addr)] } }.log
    { st := ST_HOST_ABORT, cls := .error, block := Blk.PCI, ctx := c, queue := queue, d1 := addr }

/-- Bytes given with their addresses, in contiguous pieces. -/
def segments (ws : List (Nat × Byte)) : List (Nat × List Byte) :=
  (ws.foldl (fun (a : List (Nat × List Byte)) w => match a with
    | (s, l) :: t => if s + l.length = w.1 then (s, l ++ [w.2]) :: t else (w.1, [w.2]) :: a
    | [] => [(w.1, [w.2])]) []).reverse

/-- Writes bytes given with their host addresses, ascending, in contiguous pieces. -/
def Mod.hostPut (m : Mod) (fn : Nat) (ws : List (Nat × Byte)) : Mod :=
  ((segments ws).foldl (fun m s => m.hostWrite fn s.1 s.2) m).cnt 621 ws.length

/-- The bytes that go to a host window: the other nibble of a byte of which only one is written has no defined value (DESIGN
CHOICE, log entry 20: the module does not read host memory to write it). -/
def Mod.hostBytes (m : Mod) (ws : List (Nat × Byte)) (half : List (Nat × Bool × Nat)) : List (Nat × Byte) × Mod :=
  let (k, m) := m.draw
  (ws ++ half.map (fun h => (h.1, BitVec.ofNat 8 (if h.2.1 then Config.freeNat k % 16 + h.2.2 * 16
    else h.2.2 + Config.freeNat k % 16 * 16))), m)

/-- Sends an operation's writes to its host window, then the zero-length read of the last address (R228). -/
def Mod.hostOut (m : Mod) (i : Nat) : Mod :=
  match (m.queue i).op with
  | none => m
  | some o =>
    if (o.writes.isEmpty && o.nibbles.isEmpty) || !o.fallback.isEmpty then m
    else
      let c := qCtx i
      let fn := m.requester c
      let (ws, m) := m.hostBytes o.writes o.nibbles
      let last := (ws.getLast?.map (·.1)).getD 0
      if !m.hostUp fn then
        (m.modOp i fun o => { o with writes := [], nibbles := [], status := ST_HOST_ABORT }).hostAbort c i last
      else
        let m := m.hostPut fn ws
        let m := m.modOp i fun o => { o with writes := [], nibbles := [], hostPhase := 2, ready := false }
        (m.hostAsk1 { tag := 0, queue := i, list := none, addr := last, len := 0, fn := fn }).hostPump

/-- A reader of bytes that arrived from the host. -/
def hostReader (l : List (Nat × Byte)) : Reader := fun a => match l.find? (·.1 == a) with | some x => x.2 | none => 0

/-- Begins an operation's reads of a host window. -/
def Mod.hostBegin (m : Mod) (i : Nat) (rs : List (Nat × Nat)) : Mod :=
  let c := qCtx i
  let fn := m.requester c
  if !m.hostUp fn then
    (m.modOp i fun o => { o with status := ST_HOST_ABORT }).hostAbort c i ((rs.headD (0, 0)).1)
  else (m.modOp i fun o => { o with hostPhase := 1, ready := false }).hostAsk i none fn rs

/-! ### Running copies -/

/-- A copy's data have arrived, or it reads module memory: the run. -/
def Mod.cpGo (m : Mod) (i : Nat) (o : Op) : Mod :=
  match capOf o.caps 0, capOf o.caps 1 with
  | some src, some dst =>
    let rd : Reader := if src.host then hostReader o.hostData else m.rdByte
    let poison := m.poisonedPart src (CpRec.srcOff o.rcd) (CpRec.count o.rcd src)
    let m := m.readPart src (CpRec.srcOff o.rcd) (CpRec.count o.rcd src)
    let m := m.modOp i fun o => { o with hostPhase := 0, ready := true }
    let m := m.runFirst i poison false (cpRun m.rdByte rd o.rcd o.caps [])
    let m := if o.hostFail then m.modOp i fun o => { o with status := ST_HOST_ABORT } else m
    -- what goes to a host window is settled before it is sent: the first run ends here
    if dst.host then (m.mergeRun i).hostOut i else m
  | _, _ => m

/-- Issue of a `COPY`. -/
def Mod.cpStart (m : Mod) (i : Nat) (r : W1024) (caps : List Cap) : Mod :=
  match capOf caps 0, (m.queue i).op with
  | some src, some o =>
    if src.host then m.hostBegin i (src.ranges (CpRec.srcOff r) (CpRec.count r src)) else m.cpGo i o
  | _, _ => m

/-! ### `HOST_XFER` (R184) -/

namespace HxRec
def srcRgn (r : W1024) : Nat := Rc.pf r 0 0 10
def srcOff (r : W1024) : Nat := Rc.pf r 0 10 40
def dstRgn (r : W1024) : Nat := Rc.pf r 1 0 10
def dstOff (r : W1024) : Nat := Rc.pf r 1 10 40
def bytes (r : W1024) : Nat := Rc.pf r 2 0 40
end HxRec

/-- Checks 6 to 8 of `HOST_XFER`: 6.1 of both regions, then 6.2 of both (R170). -/
def Mod.hxCheck (m : Mod) (c : Nat) (r : W1024) : Status :=
  let n := HxRec.bytes r
  match m.rawForm c (HxRec.srcRgn r) (HxRec.srcOff r) n 1 .rd, m.rawForm c (HxRec.dstRgn r) (HxRec.dstOff r) n 1 .wr with
  | .error e, _ => e
  | _, .error e => e
  | .ok a, .ok b =>
    if !m.rgnUp a || !m.rgnUp b then ST_PART_DOWN
    else if Rgn.hostwin a == Rgn.hostwin b then ST_BAD_REGION
    else if n = 0 || n % 64 ≠ 0 || HxRec.srcOff r % 64 ≠ 0 || HxRec.dstOff r % 64 ≠ 0 then ST_BAD_SHAPE
    else ST_OK

/-- Issue of a checked `HOST_XFER`; the regions are captured in slots 0 and 1. -/
def Mod.hxStart (m : Mod) (i : Nat) (r : W1024) : Mod :=
  let c := qCtx i
  let a := m.region c (HxRec.srcRgn r)
  let b := m.region c (HxRec.dstRgn r)
  let n := HxRec.bytes r
  let cap (s : Nat) (g : W256) : Cap := { slot := s, entry := 0, owner := c, viaAlias := false, desc := 0, rgn := g }
  let m := m.modOp i fun o => { o with caps := [cap 0 a, cap 1 b] }
  if Rgn.hostwin a then m.hostBegin i [(Rgn.hostAddr a + HxRec.srcOff r, n)]
  else
    let pa := Rgn.base a + HxRec.srcOff r
    if m.poisonedIn pa n then m.modOp i fun o => { o with status := ST_MEM_UNCORR }
    else
      let l := m.rd pa n
      let m := m.reach (Rgn.fine a) .rd pa n
      (m.modOp i fun o => { o with writes := atAddr (Rgn.hostAddr b + HxRec.dstOff r) l }).hostOut i

/-- A host transfer's data have arrived. -/
def Mod.hxGo (m : Mod) (i : Nat) (o : Op) : Mod :=
  match capOf o.caps 0, capOf o.caps 1 with
  | some a, some b =>
    let n := HxRec.bytes o.rcd
    let l := (List.range n).map fun k => hostReader o.hostData (Rgn.hostAddr a.rgn + HxRec.srcOff o.rcd + k)
    m.modOp i fun o => { o with
      writes := atAddr (Rgn.base b.rgn + HxRec.dstOff o.rcd) l, hostPhase := 0, ready := true,
      status := if o.hostFail then ST_HOST_ABORT else ST_OK }
  | _, _ => m

/-- Every host read of queue `i`'s operation is done: it goes on. -/
def Mod.hostGo (m : Mod) (i : Nat) : Mod :=
  match (m.queue i).op with
  | none => m
  | some o =>
    if m.pcie.reqs.any (fun q => q.list.isNone && q.queue == i) then m
    else if o.hostPhase = 2 then
      m.modOp i fun o => { o with hostPhase := 0, ready := true, status := if o.hostFail then ST_HOST_ABORT else o.status }
    else if o.hostPhase = 1 then (if Rc.opcode o.rcd = 0x34 then m.hxGo i o else m.cpGo i o)
    else m

/-! ### Prefetch lists (R164-R166) -/

/-- The record of a list item as a whole copy. -/
def itemRec (layer src dst : Nat) : W1024 :=
  BitVec.ofNat 1024 (0x30 + 2 * 2 ^ 8 + layer * 2 ^ 32
    + (src + dst * 2 ^ 17 + noDesc * 2 ^ 34 + noDesc * 2 ^ 51 + noDesc * 2 ^ 68 + noDesc * 2 ^ 85) * 2 ^ 576)

/-- Header of list `l` of context `c`: items' offset, count, flag, increment, and the status of its checks. -/
def Mod.pfHeader (m : Mod) (c l : Nat) : Status × Nat × Nat × Nat × Nat :=
  let n := m.get F.CTX_PF_CFG_pf_region c
  let off := m.get F.CTX_PF_BASE_pf_off c * 16 + 16 * l
  match m.rawRegion c n off 16 1 .rd with
  | .error e => (e, 0, 0, 0, 0)
  | .ok g =>
    let pa := Rgn.base g + off
    let x := m.rdNat pa 16
    (if Rgn.hostwin g then ST_BAD_REGION else if m.poisonedIn pa 16 then ST_MEM_UNCORR
      else if !zeroIn x [(0, 4), (56, 8), (112, 16)] then ST_BAD_RECORD else ST_OK,
      bits x 0 40, bits x 40 16, bits x 64 16, bits x 80 32)

/-- Item `k` of a list: source, destination, status of its checks. -/
def Mod.pfItem (m : Mod) (c items k : Nat) : Status × Nat × Nat :=
  let n := m.get F.CTX_PF_CFG_pf_region c
  match m.rawRegion c n (items + 16 * k) 16 1 .rd with
  | .error e => (e, 0, 0)
  | .ok g =>
    let pa := Rgn.base g + items + 16 * k
    let x := m.rdNat pa 16
    (if m.poisonedIn pa 16 then ST_MEM_UNCORR else if !zeroIn x [(34, 94)] then ST_BAD_RECORD else ST_OK,
      bits x 0 17, bits x 17 17)

/-- The access that reads `n` bytes of the region of the lists. -/
def Mod.pfReach (m : Mod) (c off n : Nat) : Mod :=
  let g := m.region c (m.get F.CTX_PF_CFG_pf_region c)
  m.reach (Rgn.fine g) .rd (Rgn.base g + off) n

/-- Captures an item: its record and tensors, or the status of the first check that fails. -/
def Mod.pfCapture (m : Mod) (c parts layer src dst : Nat) : Except Status (W1024 × List Cap) :=
  let r := itemRec layer src dst
  if dst = noDesc then
    match m.capSlot c parts 0 src .rd with
    | .error e => .error e
    | .ok x =>
      let st := m.rgnCheck r [x] x .rd
      if st ≠ ST_OK then .error st else if !m.rgnUp x.rgn then .error ST_PART_DOWN else .ok (r, [x])
  else
    match m.captureOp c parts r with
    | .error e => .error e
    | .ok caps => let st := cpCheck m r caps; if st ≠ ST_OK then .error st else .ok (r, caps)

/-- Changes the run of list `l`. -/
def Mod.modPf (m : Mod) (c l : Nat) (f : PfRun → PfRun) : Mod :=
  let x := m.ctx c
  m.setCtx c { x with pfRun := x.pfRun.map fun p => if p.layer = l then f p else p }

/-- The result of an item's copy, with what the end of its run calls for: a whole copy may fall back (R114), and its re-run follows
at once. -/
def Mod.pfRes (m : Mod) (c part : Nat) (r : W1024) (caps : List Cap) (rd : Reader) : RunRes × Mod :=
  let res := cpRun m.rdByte rd r caps []
  let pubs := (res.outs.filter (·.publish)).map fun o => ({ entry := o.cap.entry, fmt := o.fmt, scale := o.scale } : Pub)
  let (fb, m) := m.firstEnd c part r caps pubs (res.stats c) res.excess
  if fb.isEmpty then (res, m)
  else
    let again := cpRun m.rdByte rd r caps fb
    (again, (m.fallbackMarks c part (Rc.layer r) caps fb).againEnd c (Rc.layer r) part (again.stats c))

/-- One item's copy, its host data at hand: written and published at once. -/
def Mod.pfCopy (m : Mod) (c l parts : Nat) (r : W1024) (caps : List Cap) (data : List (Nat × Byte)) : Status × Mod :=
  match capOf caps 0, capOf caps 1 with
  | some src, some dst =>
    if m.poisonedPart src 0 src.count then (ST_MEM_UNCORR, m)
    else
      let (part, m) := (m.readPart src 0 src.count).somePart parts
      let (res, m) := m.pfRes c part r caps (if src.host then hostReader data else m.rdByte)
      let (ws, pubs, m) := m.runWrites res
      if !dst.host then (res.status, pubs.foldl Mod.publish (m.wrOuts (finesOf [dst.rgn]) ws.whole ws.half))
      else if !m.hostUp (m.requester c) then (ST_HOST_ABORT, m)
      else
        let (bs, m) := m.hostBytes ws.whole ws.half
        let m := m.hostPut (m.requester c) bs
        let m := m.modPf c l fun p => { p with wrote := (bs.getLast?.map (·.1)).orElse fun _ => p.wrote }
        (res.status, pubs.foldl Mod.publish m)
  | _, _ => (ST_OK, m)

/-- What item `p.item` of list `l` captured when it started, or captures now (R166). -/
def Mod.pfItemCap (m : Mod) (c l items : Nat) (p : PfRun) : Except Status (W1024 × List Cap) :=
  match p.cap with
  | some x => .ok x
  | none =>
    let (st, src, dst) := m.pfItem c items p.item
    if st ≠ ST_OK then .error st else m.pfCapture c (m.qMask p.queue) l src dst

/-- Runs the items of list `l` from where it stands. An item that reads a host window asks for its data and waits for them; one
that would write a source of a generation in drain waits for its end (R310, R332). `k` bounds the items. -/
def Mod.pfItems (m : Mod) (c l items n : Nat) : Nat → Mod
  | 0 => m
  | k + 1 =>
    match (m.ctx c).pfRun.find? (·.layer == l) with
    | none => m
    | some p =>
      if n ≤ p.item then m
      else match m.pfItemCap c l items p with
        | .error e => m.pfFail c l e
        | .ok (r, caps) =>
          let m := if p.cap.isNone then m.pfReach c (items + 16 * p.item) 16 else m
          let hostSrc := match capOf caps 0, capOf caps 1 with | some x, some _ => x.host | _, _ => false
          if m.sourceHeld r caps then m
          else if hostSrc && p.cap.isNone then
            if !m.hostUp (m.requester c) then m.pfFail c l ST_HOST_ABORT
            else
              let rs := match capOf caps 0 with | some x => x.ranges 0 x.count | none => []
              (m.modPf c l fun p => { p with cap := some (r, caps), data := [] }).hostAsk 1024 (some (c, l)) (m.requester c) rs
          else if m.pcie.reqs.any fun q => q.list == some (c, l) then m
          else
            let (st, m) := m.pfCopy c l (m.qMask p.queue) r caps p.data
            if st ≠ ST_OK then m.pfFail c l st
            else (m.modPf c l fun p => { p with item := p.item + 1, cap := none, data := [] }).pfItems c l items n k

/-- The last item of list `l` has finished: the list's writes to host windows are made visible (R228), then its flag is raised
and it completes (R166). -/
def Mod.pfFinish (m : Mod) (c l : Nat) (p : PfRun) (flag inc : Nat) : Mod :=
  match p.wrote with
  | some a =>
    ((m.modPf c l fun p => { p with wrote := none }).hostAsk1
      { tag := 0, queue := 1024, list := some (c, l), addr := a, len := 0, fn := m.requester c }).hostPump
  | none =>
    let m := m.ctxFlagAdd c flag (BitVec.ofNat 64 inc) Blk.CTX
    let m := m.traceParts (m.qMask p.queue) 0x09 c (p.queue % 16) l (1 + l * 2 ^ 16)
    m.pfEnd c l ST_OK

/-- A list goes on; when its last item finishes its flag is raised and it completes (R166). -/
def Mod.pfAdvance (m : Mod) (c l : Nat) : Mod :=
  match (m.ctx c).pfRun.find? (·.layer == l) with
  | none => m
  | some _ =>
    let (st, items, n, flag, inc) := m.pfHeader c l
    if st ≠ ST_OK then m.pfFail c l st
    else
      let m := (m.pfReach c (m.get F.CTX_PF_BASE_pf_off c * 16 + 16 * l) 16).pfItems c l items n (n + 1)
      match (m.ctx c).pfRun.find? (·.layer == l) with
      | none => m
      | some p' => if p'.item < n then m else m.pfFinish c l p' flag inc

/-- A host completion's bytes go to their operation or list; a failed request leaves free bytes (R229). -/
def Mod.hostTake (m : Mod) (tag : Nat) (data : List Byte) (ok : Bool) : Mod :=
  match m.pcie.reqs.find? (fun q => q.tag == tag && q.sent) with
  | none => m
  | some q =>
    let (data, m) := if ok then (data.take q.len, m) else m.drawBytes q.len
    let m := (m.cnt 616 data.length).cnt 620 data.length
    let part := ok && decide (data.length < q.len)
    let rest := m.pcie.reqs.filter (·.tag != tag)
    let m := { m with pcie := { m.pcie with
      reqs := if part then rest ++ [{ q with addr := q.addr + data.length, len := q.len - data.length }] else rest } }
    let bytes := atAddr q.addr data
    match q.list with
    | some (c, l) =>
      if !ok then (m.hostAbort c 0xFFFF q.addr).pfFail c l ST_HOST_ABORT
      else
        let m := (m.modPf c l fun p => { p with data := p.data ++ bytes }).hostPump
        if m.pcie.reqs.any (fun x => x.list == some (c, l)) then m else m.pfAdvance c l
    | none =>
      let m := if ok then m else m.hostAbort (qCtx q.queue) q.queue q.addr
      let m := m.modOp q.queue fun o => { o with hostData := o.hostData ++ bytes, hostFail := o.hostFail || !ok }
      m.hostPump.hostGo q.queue

end Sys2Proof.Machine
end

