-- ==== Sys2Proof/Machine/Atomic.lean ====
section
/-! DEFINITION. Atomic operations (R186, R187, R211-R216): `SCATTER_REDUCE`, `ATOMIC_CAS` and AtomicOps on BAR4. -/

namespace Sys2Proof.Machine

namespace SrRec
def aop (r : W1024) : Nat := Rc.pf r 0 0 4
def strict (r : W1024) : Bool := (Rc.p r 0).testBit 4
end SrRec

/-- Whether a target format suits an `aop` (Table 6.7). -/
def aopFmt (a f : Nat) : Bool :=
  match a with
  | 0 => f == FP32
  | 1 => f == BF16
  | 4 | 5 => f == FP32 || f == INT32
  | _ => f == INT32

/-- Elements of an atomic operation are single codes, or 64-bit pairs for `ADD_I64`. -/
def aopPair (a : Nat) : Bool := a == 3

/-- Checks 8 and 9 of `SCATTER_REDUCE`. -/
def srCheck (m : Mod) (r : W1024) (caps : List Cap) : Status :=
  match capOf caps 0, capOf caps 2 with
  | some src, some t =>
    let a := SrRec.aop r
    let ix := capOf caps 1
    let unit := if aopPair a then 2 else 1
    if 9 ≤ a then ST_BAD_ATTR
    else if !(aopFmt a t.fmt && src.fmt != CODE4 && (!aopPair a || src.fmt == INT32)
        && (match ix with | some x => x.fmt == INT32 | none => true)) then ST_BAD_FORMAT
    else if !((!aopPair a || (src.ext 0 % 2 == 0 && t.ext 0 % 2 == 0))
        && (match ix with | some x => x.rank == 1 && x.count == src.count / unit | none => src.count == t.count)) then ST_BAD_SHAPE
    else if !scalesOk r caps then ST_BAD_SCALE
    else if !m.stepFree (rowOf r) caps then ST_STEP_OPEN
    else ST_OK
  | _, _ => ST_BAD_DESC

/-- The stored result of one element's update (Table 7.4), and whether a float add made a NaN or overflowed (R213). -/
def atomUpdate (a f old v : Nat) : Nat × Bool :=
  let w := fmtWidth f
  match a with
  | 0 | 1 =>
    let x := decodeF f old
    let y := decodeF f v
    let s := x.add y
    let c := (encodeF f true s).1
    (c, s.isMade || (x.isFin && y.isFin && ffMax f < c % 2 ^ (w - 1)))
  | 2 => ((old + v) % 2 ^ 32, false)
  | 3 => ((old + v) % 2 ^ 64, false)
  | 4 =>
    if f = FP32 then ((encodeF f true ((decodeF f old).min (decodeF f v))).1, false)
    else (if signed 32 v < signed 32 old then v else old, false)
  | 5 =>
    if f = FP32 then ((encodeF f true ((decodeF f old).max (decodeF f v))).1, false)
    else (if signed 32 old < signed 32 v then v else old, false)
  | 6 => (old &&& v, false)
  | 7 => (old ||| v, false)
  | _ => (old ^^^ v, false)

/-- A member at a free position of a list, and the rest: requests arrive in an order that is not defined (R212). -/
def takeFree (k : Nat) (l : List (Nat × Nat)) : Option ((Nat × Nat) × List (Nat × Nat)) :=
  let p := Config.freeNat k % max l.length 1
  (l[p]?).map fun x => (x, l.eraseIdx p)

/-- Applies updates (address, operand) of `n` bytes, each an atomic request in mode `fine`, to memory in a free order; a
request whose line holds a poisoned word is not applied (R216). Result: poison met, non-finite events. -/
def Mod.atomApply (m : Mod) (fine : Bool) (a f n : Nat) : Nat → List (Nat × Nat) → Bool × Nat × Mod
  | 0, _ => (false, 0, m)
  | k + 1, l =>
    let (j, m) := m.draw
    match takeFree j l with
    | none => (false, 0, m)
    | some ((pa, v), rest) =>
      if m.poisonedIn (pa / 128 * 128) 128 then
        let (_, e, m) := m.atomApply fine a f n k rest
        (true, e, m)
      else
        let (x, b) := atomUpdate a f (m.rdNat pa n) v
        let (p, e, m) := ((m.wrList (atAddr pa (leBytes n x))).atomic fine pa n).atomApply fine a f n k rest
        (p, e + b2n b, m)

/-- The code of source element `i` in the present format of a partly written target (R482): its bits where format and scale
agree, else its converted value; with what the Caliper observes. `none` for an element without meaning. -/
def Mod.partCode (m : Mod) (src : Cap) (t : Target) (st : Stat) (i : Nat) : Option Nat × Stat :=
  if src.fmt = t.fmt && Ds.scale src.desc == t.scale then (some (m.code src i), st) else t.put st (m.real src i)

/-- Operand of source element `i` for the target (R186), with what the Caliper observes. -/
def Mod.srOperand (m : Mod) (a : Nat) (src t : Cap) (st : Stat) (i : Nat) : Option Nat × Stat :=
  if aopPair a then (some (m.code src (2 * i) + 2 ^ 32 * m.code src (2 * i + 1)), st)
  else if fmtInt src.fmt && fmtInt t.fmt then
    -- an integer source enters as its stored value, widened or saturated (R55)
    let z := signed (fmtWidth src.fmt) (m.code src i)
    let (c, b) := satInt t.fmt z
    (some c, if src.fmt = t.fmt then st else (st.observe t.fmt (m.real src i) (.ofInt z)).events { sat := b })
  else m.partCode src { t.present with zp := 0 } st i

/-- Carries out `SCATTER_REDUCE`. Requests go to the slices at once; nothing is buffered. -/
def Mod.srStart (m : Mod) (i : Nat) (r : W1024) (caps : List Cap) : Mod :=
  match capOf caps 0, capOf caps 2 with
  | some src, some t =>
    if m.poisonedCap src || (match capOf caps 1 with | some x => m.poisonedCap x | none => false) then
      m.modOp i fun o => { o with status := ST_MEM_UNCORR }
    else
      let m := m.readCap src
      let m := match capOf caps 1 with | some x => m.readCap x | none => m
      let a := SrRec.aop r
      let n := if aopPair a then 8 else fmtWidth t.fmt / 8
      let unit := if aopPair a then 2 else 1
      let rows := t.count / unit
      let ops := (List.range (src.count / unit)).foldl (fun (p : List (Option Nat) × Stat) k =>
        let (v, st) := m.srOperand a src t p.2 k
        (v :: p.1, st)) ([], {})
      let at_ (k : Nat) : Option Nat := match capOf caps 1 with
        | some x => let z := m.index x k; if 0 ≤ z && z < (rows : Int) then some z.toNat else none
        | none => some k
      let l := ((List.range (src.count / unit)).zip ops.1.reverse).filterMap fun p =>
        match at_ p.1, p.2 with | some e, some v => some (t.base + e * n, v) | _, _ => none
      let bad := match capOf caps 1 with | some x => m.badIdx x rows | none => []
      let m := m.indexRecord i (m.qMask i) (SrRec.strict r) bad
      let (pois, e, m) := m.atomApply (Rgn.fine t.rgn) a t.fmt n l.length l
      let st := { ops.2 with nNf := ops.2.nNf + e }
      m.modOp i fun o => { o with
        run := .first, stats := if capStats (qCtx i) t && st != ({} : Stat) then [{ cap := t, fmt := t.fmt, stat := st }] else [],
        status := if pois then ST_MEM_UNCORR else if ops.1.contains none then ST_BAD_SCALE
          else if SrRec.strict r && !bad.isEmpty then ST_INDEX_RANGE else ST_OK }
  | _, _ => m

/-- Checks 8 and 9 of `ATOMIC_CAS`. -/
def caCheck (m : Mod) (r : W1024) (caps : List Cap) : Status :=
  let f := capFmt caps 0
  let n := match capOf caps 0 with | some x => x.count | none => 0
  if !((f == FP32 || f == INT32) && caps.all (fun x => x.fmt == f) && outsOk r (rowOf r) caps) then ST_BAD_FORMAT
  else if !caps.all (fun x => x.count == n) then ST_BAD_SHAPE
  else if !scalesOk r caps then ST_BAD_SCALE
  else if !m.stepFree (rowOf r) caps then ST_STEP_OPEN
  else ST_OK

/-- The elements of `ATOMIC_CAS` in turn: prior codes in order, none where a poisoned line refused the request; beside
each element the code to swap in. -/
def Mod.casAll (m : Mod) (cmp tgt : Cap) : List (Nat × Option Nat) → List (Option Nat) × Mod
  | [] => ([], m)
  | (i, v) :: t =>
    let pa := tgt.base + 4 * i
    if m.poisonedIn (pa / 128 * 128) 128 then
      let (l, m) := m.casAll cmp tgt t
      (none :: l, m)
    else
      let old := m.rdNat pa 4
      let m' := match v with
        | some v => if old = m.code cmp i then m.wrList (atAddr pa (leBytes 4 v)) else m
        | none => m
      let (l, m'') := (m'.atomic (Rgn.fine tgt.rgn) pa 4).casAll cmp tgt t
      (some old :: l, m'')

/-- The codes that go into the tensor of prior values: bits where its scale is the target's, converted values else (R482). -/
def oldCodes (tgt old : Cap) (l : List (Option Nat)) : List (Option Nat) × Stat :=
  let t := old.present
  let r := l.foldl (fun (p : List (Option Nat) × Stat) c => match c with
    | none => (none :: p.1, p.2)
    | some c =>
      if Ds.scale tgt.desc = t.scale then (some c :: p.1, p.2)
      else
        let v := if tgt.fmt = INT32 then ((Num.ofInt (signed 32 c - Ds.zeroPt tgt.desc)).mul tgt.scale).r32
          else scaleBy (num32 c) tgt.scale
        let (d, st) := t.put p.2 v
        (d :: p.1, st)) ([], {})
  (r.1.reverse, r.2)

/-- Carries out `ATOMIC_CAS`: partial writes of the target and of the tensor of prior values. -/
def Mod.caStart (m : Mod) (i : Nat) (caps : List Cap) : Mod :=
  match capOf caps 0, capOf caps 1, capOf caps 2 with
  | some cmp, some swap, some tgt =>
    if m.poisonedCap cmp || m.poisonedCap swap then m.modOp i fun o => { o with status := ST_MEM_UNCORR }
    else
      let m := (m.readCap cmp).readCap swap
      let sw := (List.range tgt.count).foldl (fun (p : List (Nat × Option Nat) × Stat) k =>
        let (v, st) := m.partCode swap tgt.present p.2 k
        ((k, v) :: p.1, st)) ([], {})
      let (old, m) := m.casAll cmp tgt sw.1.reverse
      let back := (capOf caps 3).map fun x => (x, oldCodes tgt x old)
      let stats := { cap := tgt, fmt := tgt.fmt, stat := sw.2 }
        :: (match back with | some b => [({ cap := b.1, fmt := b.1.fmt, stat := b.2.2 } : TenStat)] | none => [])
      m.modOp i fun o => { o with
        writes := (match back with | some b => packN 4 b.1.base b.2.1 | none => []),
        run := .first, stats := stats.filter fun t => capStats (qCtx i) t.cap && t.stat != ({} : Stat),
        status := if old.contains none then ST_MEM_UNCORR else ST_OK }
  | _, _, _ => m

end Sys2Proof.Machine
end

