-- ==== Sys2Proof/Machine/Compute.lean ====
section
/-! DEFINITION. Issue of the compute, data-movement and atomic records (R142, R170), and the fallback re-run (R115). -/

namespace Sys2Proof.Machine

/-- Whether the operation of queue `i` is still running after the memory errors that its reads met (R219, R220, R222). -/
def Mod.running (m : Mod) (i : Nat) : Bool := (m.queue i).op.isSome

/-- Whether some tensor that the operation reads holds a poisoned word (R220). -/
def Mod.readsPoison (m : Mod) (r : W1024) (caps : List Cap) : Bool :=
  caps.any fun x => (useOf (rowOf r) x.slot == .rd || alsoReads r x.slot) && m.poisonedCap x

/-- Addresses of every byte of the outputs of an operation. -/
def opOutAddrs (r : W1024) (caps : List Cap) : List Nat :=
  (caps.filter fun x => useOf (rowOf r) x.slot == .wr).flatMap fun x => x.bytesOf (outFmt r caps x)

/-- The accesses that read the operands of a run: the tensors read, of a gather's table the rows named (R204). The order and the
size of the accesses of an operation are not given (DESIGN CHOICE, log entry 78: one for each plane or row). -/
def Mod.readOps (m : Mod) (r : W1024) (caps : List Cap) : Mod :=
  match Rc.opcode r with
  | 0x31 => m.readRows caps
  | _ => (caps.filter fun x => useOf (rowOf r) x.slot == .rd || alsoReads r x.slot).foldl Mod.readCap m

/-! ### What each opcode computes -/

/-- A run of a record whose operands are in module memory, and whether it reads poison. -/
def Mod.runOf (m : Mod) (r : W1024) (caps : List Cap) (ov : Over) : Bool × RunRes :=
  match Rc.opcode r with
  | 0x10 | 0x11 => (m.readsPoison r caps, m.matRun (mmJob r caps) caps ov)
  | 0x12 => (m.readsPoison r caps, m.matRun (cvJob r) caps ov)
  | 0x13 => (m.readsPoison r caps, m.attnRun r caps ov)
  | 0x20 => (m.readsPoison r caps, m.ewRun r caps ov)
  | 0x21 => (m.readsPoison r caps, m.rdRun r caps ov)
  | 0x22 => (m.readsPoison r caps, m.nmRun r caps ov)
  | 0x23 => (m.readsPoison r caps, m.smRun r caps ov)
  | 0x31 => (m.gaPoison caps, m.gaRun r caps ov)
  | 0x32 => (m.readsPoison r caps, m.scRun r caps)
  | 0x33 => (m.readsPoison r caps, m.tpRun r caps ov)
  | _ => (false, {})

/-- Whether out-of-range indices are errors (R185). -/
def strictIdx (r : W1024) : Bool := (Rc.opcode r == 0x31 || Rc.opcode r == 0x32) && strictOf r

/-! ### Issue -/

/-- Carries out the first run of the operation just issued on queue `i`; a matrix or vector operation is skipped in an
abandoned step (R320). -/
def Mod.runNow (m : Mod) (i : Nat) (errs : List MemErr) (r : W1024) (caps : List Cap) : Mod :=
  if isCompute (Rc.opcode r) && m.skipped (qCtx i) then m.skipOp i (opOutAddrs r caps)
  else
    let m := m.meetErrors (some i) 0 errs
    if !m.running i then m
    else
      let m := m.readOps r caps
      let x := m.runOf r caps []
      m.runFirst i x.1 (strictIdx r) x.2

/-- Issues a matrix, vector, gather, scatter or transpose record. -/
def Mod.issueRun (m : Mod) (i code : Nat) (errs : List MemErr) (chk : Mod → W1024 → List Cap → Status) : Mod :=
  m.issue i code chk fun m r caps => m.runNow i errs r caps

def Mod.issueNop (m : Mod) (i : Nat) : Mod := m.issue i 0x00 (fun _ _ _ => ST_OK) fun m _ _ => m
def Mod.issueMatmul (m : Mod) (i : Nat) (errs : List MemErr) : Mod := m.issueRun i 0x10 errs mmCheck
def Mod.issueBmatmul (m : Mod) (i : Nat) (errs : List MemErr) : Mod := m.issueRun i 0x11 errs mmCheck
def Mod.issueConv (m : Mod) (i : Nat) (errs : List MemErr) : Mod := m.issueRun i 0x12 errs cvCheck
def Mod.issueAttn (m : Mod) (i : Nat) (errs : List MemErr) : Mod := m.issueRun i 0x13 errs anCheck
def Mod.issueEltwise (m : Mod) (i : Nat) (errs : List MemErr) : Mod := m.issueRun i 0x20 errs ewCheck
def Mod.issueReduce (m : Mod) (i : Nat) (errs : List MemErr) : Mod := m.issueRun i 0x21 errs rdCheck
def Mod.issueNorm (m : Mod) (i : Nat) (errs : List MemErr) : Mod := m.issueRun i 0x22 errs nmCheck
def Mod.issueSoftmax (m : Mod) (i : Nat) (errs : List MemErr) : Mod := m.issueRun i 0x23 errs smCheck
def Mod.issueGather (m : Mod) (i : Nat) (errs : List MemErr) : Mod :=
  m.issueRun i 0x31 errs fun m r caps => gsCheck m r caps 0 2
def Mod.issueScatter (m : Mod) (i : Nat) (errs : List MemErr) : Mod :=
  m.issueRun i 0x32 errs fun m r caps => gsCheck m r caps 2 0
def Mod.issueTranspose (m : Mod) (i : Nat) (errs : List MemErr) : Mod := m.issueRun i 0x33 errs tpCheck

/-- Issues a `COPY` (R184). -/
def Mod.issueCopy (m : Mod) (i : Nat) (errs : List MemErr) : Mod :=
  m.issue i 0x30 cpCheck fun m r caps =>
    let m := m.meetErrors (some i) 0 errs
    if m.running i then m.cpStart i r caps else m

/-- Issues a `HOST_XFER` (R184). -/
def Mod.issueHostXfer (m : Mod) (i : Nat) (errs : List MemErr) : Mod :=
  m.issue i 0x34 (fun m r _ => m.hxCheck (qCtx i) r) fun m r _ =>
    let m := m.meetErrors (some i) 0 errs
    if m.running i then m.hxStart i r else m

/-- Issues a `PREFETCH_LIST` (R164, R165): starts its list unless the step has started it, and waits for its end. -/
def Mod.issuePrefetchList (m : Mod) (i : Nat) : Mod :=
  let c := qCtx i
  m.issue i 0x35 (fun m r _ => if Rc.pf r 0 0 16 < m.get F.CTX_PF_CFG_pf_count c then ST_OK else ST_BAD_SHAPE) fun m r _ =>
    let l := Rc.pf r 0 0 16
    let m := m.pfStart c l i
    let x := m.ctx c
    let going := x.pfRun.any (·.layer == l)
    let st := match x.pfBad.find? (·.1 == l) with | some b => b.2 | none => ST_OK
    m.modOp i fun o => { o with ready := !going, status := if going then ST_OK else st }

/-- Issues a `SCATTER_REDUCE` (R186). -/
def Mod.issueScatterReduce (m : Mod) (i : Nat) (errs : List MemErr) : Mod :=
  m.issue i 0x40 srCheck fun m r caps =>
    let m := m.meetErrors (some i) 2 errs
    if m.running i then m.srStart i r caps else m

/-- Issues an `ATOMIC_CAS` (R187). -/
def Mod.issueAtomicCas (m : Mod) (i : Nat) (errs : List MemErr) : Mod :=
  m.issue i 0x41 caCheck fun m _ caps =>
    let m := m.meetErrors (some i) 2 errs
    if m.running i then m.caStart i caps else m

/-! ### Fallback (FALLBACK, R115, R116) -/

/-- Carries out the re-run of the operation `o` of queue `i`; its output is only written when it ends. -/
def Mod.fallbackGo (m : Mod) (i : Nat) (o : Op) (errs : List MemErr) : Mod :=
  let m := m.meetErrors (some i) 0 errs
  if !m.running i then m
  else if Rc.opcode o.rcd = 0x30 then
    match capOf o.caps 0, capOf o.caps 1 with
    | some src, some dst =>
      let m := m.readPart src (CpRec.srcOff o.rcd) (CpRec.count o.rcd src)
      let rd : Reader := if src.host then hostReader o.hostData else m.rdByte
      let poison := m.poisonedPart src (CpRec.srcOff o.rcd) (CpRec.count o.rcd src)
      let m := m.runAgain i o poison (cpRun m.rdByte rd o.rcd o.caps o.fallback)
      if dst.host then (m.mergeRun i).hostOut i else m
    | _, _ => m
  else
    let m := m.readOps o.rcd o.caps
    let x := m.runOf o.rcd o.caps o.fallback
    m.runAgain i o x.1 x.2

/-- The re-run of the operation of queue `i`, when the end of its first run calls for one. -/
def Mod.fallbackRun (m : Mod) (i : Nat) (errs : List MemErr) : Mod :=
  let m := match (m.queue i).op with
    | some o => if o.run = RunKind.first && o.ready && o.hostPhase == 0 then m.mergeRun i else m
    | none => m
  match (m.queue i).op with
  | none => m
  | some o => if o.fallback.isEmpty then m else m.fallbackGo i o errs

end Sys2Proof.Machine
end

