-- ==== Sys2Proof/Machine/Hash.lean ====
section
/-! DEFINITION. SHA-256 (R301, R422-R447) and the Philox-4×32-10 generator (R301). -/

namespace Sys2Proof.Machine

/-- Rotation of a 32-bit word to the right. -/
def rotr (n x : Nat) : Nat := (x >>> n ||| x <<< (32 - n)) % 2 ^ 32

/-- The largest number below 2^`k` whose `e`-th power does not exceed `n`, from the top bit down; `r` is what is found so far. -/
def rootGo (e n : Nat) : Nat → Nat → Nat
  | 0, r => r
  | k + 1, r => rootGo e n k (if (r + 2 ^ k) ^ e ≤ n then r + 2 ^ k else r)

/-- The first 32 bits of the fraction of the `e`-th root of `p`, for `p` below 2^10. -/
def rootBits (e p : Nat) : Nat := rootGo e (p * 2 ^ (32 * e)) 37 0 % 2 ^ 32

/-- The first 64 primes: what is left below 312 by the primes up to 17. -/
def shaPrimes : List Nat :=
  (List.range' 2 310).filter fun n => [2, 3, 5, 7, 11, 13, 17].all fun d => n == d || n % d != 0

/-- The round constants: cube roots of the first 64 primes. -/
def shaK : List Nat := shaPrimes.map (rootBits 3)

/-- Initial chaining values: square roots of the first eight. -/
def shaInit : List Nat := (shaPrimes.take 8).map (rootBits 2)

/-- The message schedule, newest word first, extended by `k` words. -/
def shaExpand : Nat → List Nat → List Nat
  | 0, w => w
  | k + 1, w =>
    let a := w.getD 14 0
    let b := w.getD 1 0
    let s0 := rotr 7 a ^^^ rotr 18 a ^^^ (a >>> 3)
    let s1 := rotr 17 b ^^^ rotr 19 b ^^^ (b >>> 10)
    shaExpand k ((w.getD 15 0 + s0 + w.getD 6 0 + s1) % 2 ^ 32 :: w)

/-- One round on the eight working values. -/
def shaRound (v : List Nat) (kw : Nat) : List Nat :=
  match v with
  | [a, b, c, d, e, f, g, h] =>
    let s1 := rotr 6 e ^^^ rotr 11 e ^^^ rotr 25 e
    let ch := (e &&& f) ^^^ ((2 ^ 32 - 1 - e) &&& g)
    let t1 := h + s1 + ch + kw
    let s0 := rotr 2 a ^^^ rotr 13 a ^^^ rotr 22 a
    let mj := (a &&& b) ^^^ (a &&& c) ^^^ (b &&& c)
    [(t1 + s0 + mj) % 2 ^ 32, a, b, c, (d + t1) % 2 ^ 32, e, f, g]
  | v => v

/-- One block of 64 bytes. -/
def shaBlock (h : List Nat) (b : List Byte) : List Nat :=
  let w := (List.range 16).map fun j => leNat ((slice b (4 * j) 4).reverse)
  let ws := (shaExpand 48 w.reverse).reverse
  let v := ((ws.zip shaK).map fun x => x.1 + x.2).foldl shaRound h
  (h.zip v).map fun x => (x.1 + x.2) % 2 ^ 32

/-- Blocks of a padded message; `k` bounds their number. -/
def shaBlocks : Nat → List Nat → List Byte → List Nat
  | 0, h, _ => h
  | k + 1, h, l => if l.isEmpty then h else shaBlocks k (shaBlock h (l.take 64)) (l.drop 64)

/-- SHA-256: 32 bytes. -/
def sha256 (l : List Byte) : List Byte :=
  let pad := (119 - l.length % 64) % 64
  let msg := l ++ [0x80] ++ List.replicate pad 0 ++ (leBytes 8 (8 * l.length)).reverse
  (shaBlocks msg.length shaInit msg).flatMap fun x => (leBytes 4 x).reverse

/-- One Philox round on counter words and key words. -/
def philoxRound (c : Nat × Nat × Nat × Nat) (k : Nat × Nat) : Nat × Nat × Nat × Nat :=
  let p0 := 0xD2511F53 * c.1
  let p1 := 0xCD9E8D57 * c.2.2.1
  ((p1 / 2 ^ 32) ^^^ c.2.1 ^^^ k.1, p1 % 2 ^ 32, (p0 / 2 ^ 32) ^^^ c.2.2.2 ^^^ k.2, p0 % 2 ^ 32)

/-- `n` rounds with the key raised between them. -/
def philox : Nat → Nat × Nat × Nat × Nat → Nat × Nat → Nat × Nat × Nat × Nat
  | 0, c, _ => c
  | n + 1, c, k => philox n (philoxRound c k) ((k.1 + 0x9E3779B9) % 2 ^ 32, (k.2 + 0xBB67AE85) % 2 ^ 32)

/-- The random value of element `e` (R301). -/
def streamValue (seed streamId step phase e : Nat) : Nat :=
  let d := sha256 (leBytes 16 seed ++ leBytes 4 streamId)
  let b := e / 4
  let o := philox 10 (b % 2 ^ 32, bits b 32 6 + phase * 2 ^ 16, step % 2 ^ 32, bits step 32 32) (leNat (d.take 4), leNat (slice d 4 4))
  bits (match e % 4 with | 0 => o.1 | 1 => o.2.1 | 2 => o.2.2.1 | _ => o.2.2.2) 16 16

end Sys2Proof.Machine
end

