-- ==== Sys2Proof/Machine/Ring.lean ====
section
/-! DEFINITION. Exchanges on a ring (R274-R283): parts of the data, segments, wire formats, the reduction at every hop, and
what each packet received calls for. A `Ring` is one participant's view of one exchange. -/

namespace Sys2Proof.Machine

/-! ### The collective word P0 (Table 6.8) -/

namespace CoRec
def axis (r : W1024) : Nat := Rc.pf r 0 0 2
def bidir (r : W1024) : Bool := (Rc.p r 0).testBit 2
def lo (r : W1024) : Nat := Rc.pf r 0 3 6
def len (r : W1024) : Nat := Rc.pf r 0 9 7
def wire (r : W1024) : Nat := Rc.pf r 0 16 4
def red (r : W1024) : Nat := Rc.pf r 0 20 2
def tag (r : W1024) : Nat := Rc.pf r 0 32 32
/-- a coordinate -/
def root (r : W1024) : Nat := Rc.pf r 1 0 6
end CoRec

/-! ### Parts of the data (R276) -/

/-- Number of participants: one for a local update (R285). -/
def ringN (r : W1024) : Nat := if Rc.opcode r = 0x55 && (Rc.p r 1).testBit 0 then 1 else CoRec.len r

/-- Start and length of part `j`: a shard, a block of an all-to-all, or the whole of a broadcast. -/
def Ring.partOf (g : Ring) (r : W1024) (j : Nat) : Nat × Nat :=
  let c := if g.kind = 4 then g.n else ceilDiv g.n (max (ringN r) 1)
  if g.kind = 4 then (0, g.n) else (j * c, min g.n ((j + 1) * c) - j * c)

/-- Start and length of the half of a part that travels in direction `d`. An all-to-all block travels whole, the shorter way
round (Table 9.2). -/
def Ring.half (g : Ring) (r : W1024) (j d : Nat) : Nat × Nat :=
  let p := g.partOf r j
  if g.kind = 3 then p
  else
    let low := if CoRec.bidir r then min p.2 (32768 * ceilDiv p.2 65536) else p.2
    if d = 0 then (p.1, low) else (p.1 + low, p.2 - low)

/-- Elements of one packet (R275). -/
def segSize (f : Nat) : Nat := if f = G16 || f = FP32 then 16384 else 65536 * 8 / max (fmtWidth f) 1

/-- Segments of `n` elements: offset within the half, elements. -/
def segs (f n : Nat) : List (Nat × Nat) :=
  (List.range (ceilDiv n (segSize f))).map fun i => (i * segSize f, min (segSize f) (n - i * segSize f))

/-- Whether the exchange adds values up: its wire carries quantised FP32 values. -/
def Ring.reduces (g : Ring) : Bool := decide (g.kind ≤ 1)

/-- Hops that an all-to-all block for the participant δ places on travels in direction `d` (Table 9.2). -/
def a2aHops (r : W1024) (d δ : Nat) : Nat :=
  let n := ringN r
  if δ = 0 then 0
  else if !CoRec.bidir r then (if d = 0 then δ else 0)
  else if δ ≤ n / 2 then (if d = 0 then δ else 0)
  else (if d = 0 then 0 else n - δ)

/-- Longest way of an all-to-all block. -/
def a2aMax (r : W1024) (d : Nat) : Nat := (List.range (ringN r)).foldl (fun a δ => max a (a2aHops r d δ)) 0

/-- Index `k` places before (direction plus) or after (minus) this participant. -/
def Ring.back (g : Ring) (r : W1024) (d j : Nat) : Nat :=
  let n := max (ringN r) 1
  if d = 0 then (g.k + n - j % n) % n else (g.k + j) % n

/-- What a packet of direction `d`, stage `s` carries to this participant: a part, and the hops still ahead of it. The blocks of
an all-to-all that pass one link in one stage have equal offsets; they leave in ascending order of their hop counts, and the
receiver tells them apart by their order of arrival (DESIGN CHOICE, log entry 33). -/
structure Hop where
  part : Nat
  left : Nat
  /-- the value is a partial sum to which this participant adds its own -/
  sum : Bool
  /-- element offset within the half -/
  off : Nat
deriving DecidableEq, Repr

/-- Reading of a packet's direction, stage and offset. -/
def Ring.hop (g : Ring) (r : W1024) (d s off : Nat) : Option Hop :=
  let n := ringN r
  if s < g.base || (d = 1 && !CoRec.bidir r) then none
  else
    let s := s - g.base
    match g.kind with
    | 0 => if n ≤ s + 1 then none
           else some { part := g.back r d (s + 2), left := n - 2 - s, sum := true, off := off * 16384 }
    | 1 => if 2 * (n - 1) ≤ s then none
           else if s + 1 < n then some { part := g.back r d (s + 2), left := n - 2 - s, sum := true, off := off * 16384 }
           else some { part := g.back r d (s - (n - 1) + 1), left := 2 * n - 3 - s, sum := false, off := off * 16384 }
    | 2 => if n ≤ s + 1 then none
           else some { part := g.back r d (s + 1), left := n - 2 - s, sum := false, off := off * 16384 }
    | 3 =>
      -- the blocks of stage s have hop counts s + 1 and more
      let h := s + 1 + g.got.count (d, s + g.base, off)
      if a2aMax r d < h then none
      else some { part := g.back r d (s + 1), left := h - s - 1, sum := false, off := off * 16384 }
    | _ => let dist := if d = 0 then (g.k + n - g.root % n) % n else (g.root + n - g.k) % n
           if s + 1 ≠ dist then none else some { part := 0, left := n - 1 - dist, sum := false, off := off * 16384 }

/-- Start of the data that a hop carries, and their number of elements. -/
def Ring.rangeOf (g : Ring) (r : W1024) (d : Nat) (h : Hop) : Nat × Nat :=
  let p := g.half r (if g.kind = 3 then 0 else h.part) d
  (p.1 + h.off, min (segSize g.fmt) (p.2 - h.off))

/-- Packets that this participant receives: direction, stage, offset. -/
def Ring.expect (g : Ring) (r : W1024) : List (Nat × Nat × Nat) :=
  let n := ringN r
  (if CoRec.bidir r then [0, 1] else [0]).flatMap fun d =>
    let half (j : Nat) : List Nat := (segs g.fmt (g.half r j d).2).map fun x => x.1 / 16384
    match g.kind with
    | 3 =>
      (List.range (a2aMax r d)).flatMap fun s =>
        ((List.range (a2aMax r d + 1)).filter fun h => decide (s < h)).flatMap fun h =>
          ((half 0).filter fun _ => decide (0 < h)).map fun o => (d, s + g.base, o)
    | 4 =>
      let dist := if d = 0 then (g.k + n - g.root % n) % n else (g.root + n - g.k) % n
      if dist = 0 then [] else (half 0).map fun o => (d, dist - 1 + g.base, o)
    | kd =>
      (List.range (if kd = 1 then 2 * (n - 1) else n - 1)).flatMap fun s =>
        match g.hop r d (s + g.base) 0 with
        | some h => (half h.part).map fun o => (d, s + g.base, o)
        | none => []

/-- Whether the exchange has received and sent all it must. -/
def Ring.finished (g : Ring) (r : W1024) : Bool :=
  decide ((g.expect r).length ≤ g.got.length) && g.outq.isEmpty

/-! ### Wire formats (R275, R279) -/

/-- `red` of two FP32 values; the incoming one is the first operand (R279). -/
def redFn (red : Nat) (w x : Num) : Num :=
  match red with
  | 1 => w.max x
  | 2 => w.min x
  | _ => w.addR x

/-- FP32 pattern of a value: a value without meaning counts as the canonical NaN (R284). -/
def patOf (x : Num) : Nat := if x = .bad then 0x7FC00000 else x.pat32

/-- Packets of values that leave at (`d`, `s`) from offset `off` (in elements) on, as payloads of an exchange that adds up;
the G16 wire quantises whole chunks afresh (R279). Result: queue entries and underflows of Q. -/
def sendVals (f d s off : Nat) (vals : List Nat) : List (Nat × Nat × Nat × List Byte) × Nat :=
  if f = G16 then
    let (cs, sc, st) := quantChunk {} (vals.map fun v => (num32 v, true))
    let cs := cs.map fun c => c.getD 0
    ((chunksOf 16384 2 cs).zip (List.range 2) |>.map fun p =>
      (d, s, off / 16384 + p.2, leBytes 4 sc ++ p.1.flatMap (leBytes 2)), st.nUf)
  else ([(d, s, off / 16384, vals.flatMap (leBytes 4))], 0)

/-- The values that codes of the G16 wire stand for, as FP32 patterns (R38). -/
def deqG16 (sc : Nat) (cs : List Nat) : List Nat :=
  cs.map fun c => if posNormal sc then patOf (scaleBy (decodeF G16 c) (num32 sc)) else 0x7FC00000

/-- Values of what Q makes of a chunk. -/
def quantVals (f : Nat) (vals : List Nat) : List Nat :=
  if f = G16 then
    let (cs, sc, _) := quantChunk {} (vals.map fun v => (num32 v, true))
    deqG16 sc (cs.map fun c => c.getD 0)
  else vals

/-- Codes of format `f` as bytes; `tail` is the upper nibble after a last odd 4-bit element. -/
def packCodes (f tail : Nat) (cs : List Nat) : List Byte :=
  if fmtWidth f = 4 then
    (chunksOf 2 cs.length cs).map fun p => BitVec.ofNat 8 (p.getD 0 0 % 16 + p.getD 1 tail % 16 * 16)
  else cs.flatMap (leBytes (fmtWidth f / 8))

/-- `n` codes of format `f` from bytes. -/
def unpackCodes (f n : Nat) (l : List Byte) : List Nat :=
  (List.range n).map fun i =>
    if fmtWidth f = 4 then bits (l.getD (i / 2) 0).toNat (4 * (i % 2)) 4
    else leNat (slice l (i * (fmtWidth f / 8)) (fmtWidth f / 8))

/-- Payload of codes that move unchanged; a G16 packet starts with its chunk's scale (R283). -/
def packMove (f sc tail : Nat) (cs : List Nat) : List Byte := (if f = G16 then leBytes 4 sc else []) ++ packCodes f tail cs

/-! ### Results -/

/-- Records values from element `e` on. -/
def putVals (t : Tab Nat) (e : Nat) (vals : List Nat) : Tab Nat :=
  ((List.range vals.length).zip vals).foldl (fun t x => Tab.set 0 t (e + x.1) x.2) t

/-- Place of the data of part `p` at element offset `o` of an all-to-all's destination or of the whole tensor. -/
def Ring.dest (g : Ring) (r : W1024) (d : Nat) (h : Hop) : Nat :=
  if g.kind = 3 then h.part * (g.n / max (ringN r) 1) + h.off else (g.rangeOf r d h).1

/-! ### Start -/

/-- The first packets of this participant (stage 0 of Table 9.2), queued until the neighbours are ready. -/
def Ring.first (g : Ring) (r : W1024) : Ring :=
  let n := ringN r
  (if CoRec.bidir r then [0, 1] else [0]).foldl (fun g d =>
    if g.kind ≤ 1 then
      -- this participant begins the half of the part one place on (plus) or back (minus)
      let j := g.back r d 1
      let p := g.half r j d
      let unit := if g.fmt = G16 then 32768 else 16384
      (List.range (ceilDiv p.2 unit)).foldl (fun g i =>
        let q := sendVals g.fmt d g.base (i * unit) ((g.x.drop (p.1 + i * unit)).take (min unit (p.2 - i * unit)))
        { g with outq := g.outq ++ q.1, events := g.events + q.2 }) g
    else
      -- the source of an all-gather is this participant's own part
      let own := if g.kind = 2 then (g.partOf r g.k).1 else 0
      let send (g : Ring) (p : Nat × Nat) (tagOff : Nat) : Ring :=
        (segs g.fmt p.2).foldl (fun g s =>
          let e := p.1 + s.1 - own
          { g with outq := g.outq ++ [(d, g.base, tagOff + s.1 / 16384,
              packMove g.fmt (g.xs.getD (e / 32768) 0) g.tail ((g.x.drop e).take s.2))] }) g
      match g.kind with
      | 2 => send g (g.half r g.k d) 0
      | 3 =>
        -- in ascending order of hop counts
        let by_ (h : Nat) : List Nat := (List.range n).filter fun δ => a2aHops r d δ == h
        ((List.range n).flatMap fun h => if h = 0 then [] else by_ h).foldl (fun g δ => send g (g.partOf r ((g.k + δ) % n)) 0) g
      | _ => if g.k = g.root then send g (g.half r 0 d) 0 else g) g

/-! ### Receipt -/

/-- Values of a whole unit (a chunk, or a segment of the FP32 wire) from element `e` on arrive: they are added to this
participant's own and sent on, or are the owner's result. -/
def Ring.addUp (g : Ring) (r : W1024) (d s : Nat) (h : Hop) (e : Nat) (w : List Nat) : Ring :=
  let own := (g.x.drop e).take w.length
  let pairs := w.zip own
  let t := pairs.map fun p => (redFn (CoRec.red r) (num32 p.1) (num32 p.2)).r32
  let made := ((pairs.zip t).filter fun p => (num32 p.1.1).isFin && (num32 p.1.2).isFin && !p.2.isFin).length
  let t := t.map patOf
  let g : Ring := { g with events := g.events + made }
  if h.left ≠ 0 then
    let q := sendVals g.fmt d (s + 1) h.off t
    { g with outq := g.outq ++ q.1, events := g.events + q.2 }
  else if g.kind = 0 then { g with res := putVals g.res e t }
  else
    let q := sendVals g.fmt d (s + 1) h.off t
    { g with res := putVals g.res e (quantVals g.fmt t), outq := g.outq ++ q.1, events := g.events + q.2 }

/-- A packet of the exchange: direction, stage, offset, payload. -/
def Ring.recv (g : Ring) (r : W1024) (d s off : Nat) (l : List Byte) : Ring :=
  match g.hop r d s off with
  | none => g
  | some h =>
    let (e, cnt) := g.rangeOf r d h
    let g := { g with got := (d, s, off) :: g.got }
    if h.sum then
      if g.fmt = FP32 then g.addUp r d s h e (unpackCodes FP32 cnt l)
      else
        let w := deqG16 (leNat (l.take 4)) (unpackCodes G16 cnt (l.drop 4))
        let o := off / 2 * 2
        let p := g.half r h.part d
        let h0 := { h with off := o * 16384 }
        -- a chunk of more than 16,384 elements comes in two packets
        if p.2 ≤ o * 16384 + 16384 then g.addUp r d s h0 (p.1 + o * 16384) w
        else match g.part.find? (fun x => x.1 == d && x.2.1 == s && x.2.2.1 / 2 == off / 2) with
          | none => { g with part := (d, s, off, w) :: g.part }
          | some x =>
            let g := { g with part := g.part.filter (· != x) }
            let whole := if off % 2 = 1 then x.2.2.2 ++ w else w ++ x.2.2.2
            g.addUp r d s h0 (p.1 + o * 16384) whole
    else
      let g := if h.left = 0 then g else { g with outq := g.outq ++ [(d, s + 1, off, l)] }
      if g.kind = 1 then
        let w := if g.fmt = FP32 then unpackCodes FP32 cnt l
          else deqG16 (leNat (l.take 4)) (unpackCodes G16 cnt (l.drop 4))
        { g with res := putVals g.res e w }
      else if g.kind = 3 && h.left ≠ 0 then g
      else
        let at_ := g.dest r d h
        let cs := unpackCodes g.fmt cnt (if g.fmt = G16 then l.drop 4 else l)
        { g with res := putVals g.res at_ cs,
                 resTail := if fmtWidth g.fmt = 4 && cnt % 2 == 1 then (l.getLast?.getD 0).toNat / 16 else g.resTail,
                 resScale := if g.fmt = G16 then Tab.set 0 g.resScale (at_ / 32768) (leNat (l.take 4)) else g.resScale }

end Sys2Proof.Machine
end

