-- ==== Sys2Proof/Machine/Collect.lean ====
section
/-! DEFINITION. Collectives (R188, R273-R284): their checks, engines, `COLL_READY`, the exchange over the fabric, and what a
finished exchange stores. -/

namespace Sys2Proof.Machine

/-! ### Where an exchange runs -/

/-- The holder of a link-die operation: the queue it issued on, or a layer of the update phase of a context (R296). -/
inductive Job where
  | q (i : Nat)
  | layer (c k : Nat)
deriving DecidableEq, Repr

/-- Its context. -/
def Job.ctx : Job → Nat
  | .q i => qCtx i
  | .layer c _ => c

/-- Its operation. -/
def Mod.jobOp (m : Mod) : Job → Option Op
  | .q i => (m.queue i).op
  | .layer c k => (m.ctx c).layers[k]?

/-- Changes its operation. -/
def Mod.modJob (m : Mod) (j : Job) (f : Op → Op) : Mod :=
  match j with
  | .q i => m.modOp i f
  | .layer c k => m.setCtx c { m.ctx c with layers := (m.ctx c).layers.modify k f }

/-- The engine's part of an operation. -/
def Op.co (o : Op) : Coll := o.coll.getD {}

/-- Changes the engine's part. -/
def Mod.modColl (m : Mod) (j : Job) (f : Coll → Coll) : Mod := m.modJob j fun o => { o with coll := some (f o.co) }

/-! ### Participants (R188, R276) -/

/-- Index of this module among the participants. -/
def Mod.ringIdx (m : Mod) (r : W1024) : Nat :=
  let e := max (m.extent (CoRec.axis r)) 1
  (coord m.logical (CoRec.axis r) + e - CoRec.lo r % e) % e

/-- Logical address of the participant next in direction `d`. -/
def Mod.ringNext (m : Mod) (r : W1024) (d : Nat) : Nat :=
  let e := max (m.extent (CoRec.axis r)) 1
  let n := max (CoRec.len r) 1
  let k := m.ringIdx r
  setCoord m.logical (CoRec.axis r) ((CoRec.lo r + (if d = 0 then k + 1 else k + n - 1) % n) % e)

/-- Whether the ring fields of P0 name a ring that this module belongs to. -/
def Mod.ringOk (m : Mod) (r : W1024) : Bool :=
  let e := m.extent (CoRec.axis r)
  decide (CoRec.lo r < e) && decide (2 ≤ CoRec.len r) && decide (CoRec.len r ≤ e) && decide (CoRec.len r ≤ 64)
  && decide (m.ringIdx r < CoRec.len r)

/-- Whether a coordinate lies inside the ring. -/
def Mod.rootIdx (m : Mod) (r : W1024) : Nat :=
  let e := max (m.extent (CoRec.axis r)) 1
  (CoRec.root r + e - CoRec.lo r % e) % e

/-! ### Checks (R188, R278, R283) -/

/-- Whether the opcode adds values up. -/
def coReduces (r : W1024) : Bool := Rc.opcode r == 0x50 || Rc.opcode r == 0x51

/-- Counts of source and destination. -/
def coCounts (r : W1024) (n s d : Nat) : Bool :=
  match Rc.opcode r with
  | 0x51 => s == n * d
  | 0x52 => d == n * s
  | 0x53 => s == d && s % n == 0
  | _ => s == d

/-- Whether the module has a logical address: an operation that would send packets of a context is rejected without one
(R262). -/
def Mod.hasAddress (m : Mod) : Bool := m.on F.RTE_SELF_logical_valid

/-- Checks 8 and 9 of the collectives but `REDUCE_UPDATE`; the ring is read from the module's logical address, so that test
comes first (DESIGN CHOICE, log entry 77). -/
def coCheck (m : Mod) (r : W1024) (caps : List Cap) : Status :=
  match capOf caps 0, capOf caps 1 with
  | some src, some dst =>
    let n := CoRec.len r
    let part := if Rc.opcode r = 0x52 then src.count else src.count / max n 1
    if !m.hasAddress then ST_NO_ROUTE
    else if CoRec.red r = 3 || !m.ringOk r
      || (Rc.opcode r == 0x54 && !(decide (CoRec.root r < m.extent (CoRec.axis r)) && decide (m.rootIdx r < n))) then ST_BAD_ATTR
    else if coReduces r && (!(CoRec.wire r == G16 || CoRec.wire r == FP32) || fmtInt src.fmt || src.fmt == CODE4) then ST_BAD_FORMAT
    else if !coReduces r && !(CoRec.wire r == src.fmt && Pl.reqFmt (Ds.plan dst.desc) == src.fmt) then ST_BAD_FORMAT
    else if !outsOk r (rowOf r) caps then ST_BAD_FORMAT
    else if !coCounts r n src.count dst.count then ST_BAD_SHAPE
    else if (Rc.opcode r == 0x52 || Rc.opcode r == 0x53) && src.fmt == G16 && part % 32768 != 0 then ST_BAD_SHAPE
    else if !scalesOk r caps then ST_BAD_SCALE
    else if !m.stepFree (rowOf r) caps then ST_STEP_OPEN
    else ST_OK
  | _, _ => ST_BAD_DESC

/-! ### Issue (R273) -/

/-- Collectives waiting for an engine of link die `d`. -/
def Mod.collWait (m : Mod) (d : Nat) : List Nat := if d = 0 then m.collWait0 else m.collWait1

/-- Replaces the waiting list of link die `d`, and `COL_QUEUE`. -/
def Mod.setCollWait (m : Mod) (d : Nat) (l : List Nat) : Mod :=
  (if d = 0 then { m with collWait0 := l } else { m with collWait1 := l }).set F.COL_QUEUE_pending d l.length

/-- The tag of a collective that timed out: its packets that came early go, and those that still come are dropped (R375) until an
operation of the context issues with the tag again. -/
def Mod.tagDead (m : Mod) (c tag : Nat) : Mod :=
  let x := m.ctx c
  let mine (p : Packet) : Bool := (p.hdr.ptype == 0x10 || p.hdr.ptype == 0x11 || p.hdr.ptype == 0x13)
    && p.hdr.ctx.toNat == c && bits p.hdr.opq.toNat 0 32 == tag
  { (m.setCtx c { x with deadTags := insertNew tag x.deadTags }) with early := m.early.filter fun p => !mine p }

/-- An issued collective waits for an engine of its axis's link die. -/
def Mod.collQueue (m : Mod) (i : Nat) (r : W1024) : Mod :=
  let d := CoRec.axis r / 2
  let x := m.ctx (qCtx i)
  let m := m.setCtx (qCtx i) { x with deadTags := x.deadTags.filter (· != CoRec.tag r) }
  (m.modOp i fun o => { o with coll := some {}, ready := false }).setCollWait d (m.collWait d ++ [i])

/-- Issues a collective other than `REDUCE_UPDATE`. -/
def Mod.issueColl (m : Mod) (i code : Nat) (errs : List MemErr) : Mod :=
  m.issue i code coCheck fun m r _ =>
    let m := m.meetErrors (some i) 0 errs
    if m.running i then m.collQueue i r else m

/-! ### Reading the source (R278, R283, R284) -/

/-- FP32 patterns of a source, and the status its reading leads to: poisoned words and chunks with a bad scale contribute
the canonical NaN. -/
def Mod.fp32Source (m : Mod) (x : Cap) : List Nat × Status :=
  let w := fmtWidth x.fmt
  let pois (i : Nat) : Bool :=
    m.poisonedIn (x.base + i * w / 8) (max 1 (w / 8))
    || (x.fmt == G16 && m.poisoned (x.base + Ds.auxOff x.desc + 4 * (i / 32768)))
  let l := (List.range x.count).map fun i => (pois i, m.real x i)
  (l.map fun v => if v.1 then 0x7FC00000 else patOf v.2,
    if l.any (·.1) then ST_MEM_UNCORR else if l.any (·.2 == .bad) then ST_BAD_SCALE else ST_OK)

/-- Memory as an engine reads it that goes on past poison: the bytes of a poisoned word carry no meaning (R283), so they are free
values, byte by byte from address `a0` on. -/
def Mod.freeReader (m : Mod) (a0 k : Nat) : Reader :=
  fun a => if m.poisoned a then BitVec.ofNat 8 (Config.freeNat k / 256 ^ (a - a0)) else m.rdByte a

/-- What a source that moves unchanged holds: codes, chunk scales, the nibble after a last odd element; and the status. -/
def Mod.rawSource (m : Mod) (x : Cap) : List Nat × List Nat × Nat × Status × Mod :=
  let (k, m) := m.draw
  let rd := m.freeReader x.base k
  ((List.range x.count).map (rd.code x),
    if x.fmt = G16 then (List.range (ceilDiv x.count 32768)).map (rd.chunkScale x) else [],
    (rd.tail x).getD 0, if m.poisonedCap x then ST_MEM_UNCORR else ST_OK, m)

/-- Kind of exchange of an opcode. -/
def coKind (r : W1024) : Nat :=
  match Rc.opcode r with | 0x50 => 1 | 0x51 => 0 | 0x52 => 2 | 0x53 => 3 | 0x54 => 4 | _ => 0

/-- Non-finite events that a link-die engine reports for context `c` (R124, R282). -/
def Mod.engineNf (m : Mod) (c n : Nat) : Mod :=
  let m := m.setCtx c { m.ctx c with nfEngines := (m.ctx c).nfEngines + n }
  (m.set F.MQ_NF_TOTAL_nonfinite_total c (m.get F.MQ_NF_TOTAL_nonfinite_total c + n)).lateNf c

/-- How many of a list of FP32 patterns are not finite. -/
def nfCount (l : List Nat) : Nat := (l.filter fun v => !(num32 v).isFin).length

/-- The first error of an operation stays. -/
def orStatus (a b : Status) : Status := if a = ST_OK then b else a

/-! ### The update engines' status registers (R306) -/

/-- `UPD_ENG_STAT` of the update engine that works on layer `j`: the one with the number of its collective engine, and in the
update phase, where no collective engine is held, one of the link die's four by the layer's place (DESIGN CHOICE, log entry 29).
`st` is none when it is idle, else whether the pass is for statistics. -/
def Mod.showEngine (m : Mod) (j : Job) (o : Op) (st : Option Bool) : Mod :=
  let e := match j, o.co.engine with
    | .layer _ k, _ => 4 * (CoRec.axis o.rcd / 2) + k % 4
    | .q _, some e => e
    | .q _, none => 4 * (CoRec.axis o.rcd / 2)
  match st with
  | none => ((m.set F.UPD_ENG_STAT_busy e 0).set F.UPD_ENG_STAT_pass e 0).set F.UPD_ENG_STAT_ctx e 0 |>.set F.UPD_ENG_STAT_layer e 0
  | some b =>
    let m := (m.set F.UPD_ENG_STAT_busy e 1).set F.UPD_ENG_STAT_pass e (b2n b)
    (m.set F.UPD_ENG_STAT_ctx e j.ctx).set F.UPD_ENG_STAT_layer e (Rc.layer o.rcd)

/-- The update engines that work for context `c` are idle again. -/
def Mod.enginesIdle (m : Mod) (c : Nat) : Mod :=
  m.each (List.range 8) fun m e =>
    if m.on F.UPD_ENG_STAT_busy e && m.get F.UPD_ENG_STAT_ctx e == c then
      m.setRegAt (R.UPD_ENG_STAT.base + R.UPD_ENG_STAT.stride * e) 0 0
    else m

/-! ### An exchange ends without finishing -/

/-- An exchange is given up with a status: a queue's operation completes with it; a layer of the update phase ends, and the
update phase has met an error (R315). -/
def Mod.jobAbort (m : Mod) (j : Job) (st : Status) : Mod :=
  let m := match m.jobOp j with
    | some o => if Rc.opcode o.rcd = 0x55 then m.showEngine j o none else m
    | none => m
  match j with
  | .q i =>
    match (m.queue i).op with
    | none => m
    | some o =>
      let as := if Rc.opcode o.rcd = 0x55 then [] else opOutAddrs o.rcd o.caps
      let (bs, m) := m.drawBytes as.length
      -- one that still waits for an engine waits no longer
      let m := (m.setCollWait 0 (m.collWait0.filter (· != i))).setCollWait 1 (m.collWait1.filter (· != i))
      m.modOp i fun o => { o with status := st, ready := true, writes := as.zip bs, pubs := [],
                                  coll := some { o.co with ring := none } }
  | .layer c _ =>
    let m := m.modJob j fun o => { o with status := st, coll := some { o.co with ring := none, phase := 4 } }
    m.setCtx c { m.ctx c with updErr := true }

/-! ### Sending (R274, R275, R270) -/

/-- `opaque` of a packet of a collective (R274). -/
def coOpaque (tag d off : Nat) : Nat := tag + d * 2 ^ 32 + off * 2 ^ 33

/-- VC of an axis's collective packets. -/
def Mod.axisVc (m : Mod) (a : Nat) : Nat := m.get (F.LNK_AXIS_VC_vc a)

/-- Sends what the neighbours are ready for; a lost route ends the exchange with `ST_NO_ROUTE`. -/
def Mod.ringFlush (m : Mod) (j : Job) : Mod :=
  match m.jobOp j with
  | none => m
  | some o => match o.co.ring with
    | none => m
    | some g =>
      let r := o.rcd
      let ok (d : Nat) : Bool := if d = 0 then o.co.readyPlus else o.co.readyMinus
      let go := g.outq.filter fun p => ok p.1
      let (lost, m) := go.foldl (fun (a : Bool × Mod) p =>
        let (s, m) := a.2.send (some j.ctx) (m.axisVc (CoRec.axis r)) g.ptype (m.ringNext r p.1) (.bytes p.2.2.2) p.2.1
          (coOpaque (CoRec.tag r) p.1 p.2.2.1)
        (a.1 || !s, m)) (false, m)
      let m := m.modColl j fun k => { k with ring := some { g with outq := g.outq.filter fun p => !ok p.1 } }
      if lost then m.jobAbort j ST_NO_ROUTE else m

/-- `COL_STAT.waiting` of the engine that runs operation `j`: a neighbour's `COLL_READY` is still to come. Without `bidir` only
the plus neighbour receives from here. -/
def Mod.showWaiting (m : Mod) (j : Job) : Mod :=
  match j, m.jobOp j with
  | .q _, some o => match o.co.engine with
    | some e =>
      m.set F.COL_STAT_waiting e (b2n (o.co.ring.isSome && !(o.co.readyPlus && (o.co.readyMinus || !CoRec.bidir o.rcd))))
    | none => m
  | _, _ => m

/-- Begins an exchange of operation `j`. -/
def Mod.ringBegin (m : Mod) (j : Job) (g : Ring) : Mod :=
  match m.jobOp j with
  | none => m
  | some o => ((m.modColl j fun k => { k with ring := some (g.first o.rcd) }).showWaiting j).ringFlush j

/-- `COLL_READY` to both neighbours: the data that each sends here may come (R275). -/
def Mod.sendReady (m : Mod) (j : Job) : Mod :=
  match m.jobOp j with
  | none => m
  | some o => match capOf o.caps 0 with
    | none => m
    | some src =>
      let r := o.rcd
      let pl := Payload.collReady (BitVec.ofNat 8 (Rc.opcode r)) (BitVec.ofNat 64 (Rc.p r 0)) src.count
        (BitVec.ofNat 4 src.fmt) (BitVec.ofNat 32 (Ds.scale src.desc))
      let (a, m) := m.send (some j.ctx) 0 0x10 (m.ringNext r 1) pl 0 (coOpaque (CoRec.tag r) 0 0)
      let (b, m) := m.send (some j.ctx) 0 0x10 (m.ringNext r 0) pl 0 (coOpaque (CoRec.tag r) 1 0)
      if a && b then m else m.jobAbort j ST_NO_ROUTE

/-! ### Starting on an engine -/

/-- Marks engine `e` busy with the operation of queue `i`. -/
def Mod.engineTake (m : Mod) (i e : Nat) (r : W1024) : Mod :=
  let m := m.modOp i fun o => { o with coll := some { o.co with engine := some e } }
  let m := (m.set F.COL_STAT_opcode e (Rc.opcode r)).set F.COL_STAT_ctx e (qCtx i)
  let m := (m.set F.COL_STAT_axis e (CoRec.axis r)).set F.COL_STAT_busy e 1
  let m := ((m.set F.COL_STAT_waiting e 0).set F.COL_STAT_stage e 0).set F.COL_STAT_tag e (CoRec.tag r)
  m.trace (17 + e / 4) 0x07 (qCtx i) (i % 16) (Rc.layer r) (2 * e + CoRec.tag r * 2 ^ 32)

/-- The exchange of a collective that starts: its source is read. -/
def Mod.collRing (m : Mod) (i : Nat) (o : Op) : Mod :=
  match capOf o.caps 0 with
  | none => m
  | some src =>
    let r := o.rcd
    let m := m.readCap src
    let g : Ring := { kind := coKind r, n := if Rc.opcode r = 0x52 then src.count * CoRec.len r else src.count,
                      fmt := CoRec.wire r, k := m.ringIdx r, root := m.rootIdx r }
    if coReduces r then
      let (x, st) := m.fp32Source src
      let m := (m.modOp i fun o => { o with status := st }).engineNf (qCtx i) (nfCount x)
      (m.sendReady (.q i)).ringBegin (.q i) { g with x := x }
    else
      let (x, xs, tl, st, m) := m.rawSource src
      let m := m.modOp i fun o => { o with status := st }
      (m.sendReady (.q i)).ringBegin (.q i) { g with x := x, xs := xs, tail := tl }

/-! ### A finished exchange -/

/-- What an engine of the link dies reports for a tensor that it writes: the events it counts, nothing observed (R104). An
overflow is among them, since R280 corrects its scale. -/
def Stat.eventsOnly (s : Stat) : Stat := { nSat := s.nSat, nUf := s.nUf, nNf := s.nNf, nOv := s.nOv }

/-- Puts an output into the operation: its events, the counts of R282, bytes and publication. -/
def Mod.collStore (m : Mod) (i : Nat) (o : Op) (out : OutW) (counts : Bool) : Mod :=
  let c := qCtx i
  let s := out.plane.stat.eventsOnly
  let m := if counts then m.engineNf c (s.nSat + s.nUf + if capStats c out.cap then 0 else s.nNf) else m
  let m := m.takeRun i .first { outs := [{ out with plane := { out.plane with stat := if counts then s else {} } }] }
  m.modOp i fun o' => { o' with status := o.status, ready := true, coll := some { o.co with ring := none } }

/-- A collective other than `REDUCE_UPDATE` has received and sent everything. -/
def Mod.collFinish (m : Mod) (i : Nat) (o : Op) (g : Ring) : Mod :=
  match capOf o.caps 0, capOf o.caps 1 with
  | some src, some dst =>
    let r := o.rcd
    let n := max (CoRec.len r) 1
    let at_ (e : Nat) : Nat := Tab.get 0 g.res e
    if coReduces r then
      let base := if Rc.opcode r = 0x51 then g.k * (g.n / n) else 0
      let t := dst.target
      let m := m.engineNf (qCtx i) g.events
      m.collStore i o { cap := dst, fmt := t.fmt, scale := t.scale,
                        plane := t.store ((List.range dst.count).map fun e => some (num32 (at_ (base + e)))) } true
    else
      let part := if Rc.opcode r = 0x52 then src.count else src.count / n
      -- the participant's own part does not travel
      let own (e : Nat) : Option Nat := match Rc.opcode r with
        | 0x54 => if g.k = g.root then some e else none
        | 0x53 => if e / max part 1 = g.k then some e else none
        | _ => if e / max part 1 = g.k then some (e - g.k * part) else none
      let code (e : Nat) : Nat := match own e with | some s => g.x.getD s 0 | none => at_ e
      let scale (k : Nat) : Nat := match own (32768 * k) with
        | some s => g.xs.getD (s / 32768) 0
        | none => Tab.get 0 g.resScale k
      m.collStore i o { cap := dst, fmt := src.fmt, scale := Ds.scale src.desc,
                        tail := some (if (own (dst.count - 1)).isSome then g.tail else g.resTail),
                        plane := { codes := (List.range dst.count).map fun e => some (code e),
                                   scales := if src.fmt = G16 then
                                       (List.range (ceilDiv dst.count 32768)).map fun k => some (scale k)
                                     else [] } } false
  | _, _ => m

end Sys2Proof.Machine
end

