-- ==== Sys2Proof/Machine/Update.lean ====
section
/-! DEFINITION. The update engines (R285-R295, R299-R304, R483): `REDUCE_UPDATE`, its statistics, update rule, master modes
and exchanges, and the packets of exchanges (R275, R279, R289). -/

namespace Sys2Proof.Machine

/-! ### Parameter groups and random streams (Tables 9.8 and 9.9) -/

def Gr.eta (g : W256) : Nat := bits g.toNat 0 32
def Gr.decay (g : W256) : Nat := bits g.toNat 32 32
def Gr.beta1 (g : W256) : Nat := bits g.toNat 64 32
def Gr.beta2 (g : W256) : Nat := bits g.toNat 96 32
def Gr.eps (g : W256) : Nat := bits g.toNat 128 32
def Gr.clip (g : W256) : Nat := bits g.toNat 160 32
def Gr.master (g : W256) : Nat := bits g.toNat 192 2
def Gr.exact (g : W256) : Bool := bit g.toNat 194
def Gr.valid (g : W256) : Bool := bit g.toNat 195
def Gr.owner (g : W256) : Nat := bits g.toNat 196 6
def Gr.protect (g : W256) : Bool := bit g.toNat 203
/-- The latched entry of group `i`. -/
def Mod.group (m : Mod) (i : Nat) : W256 := Tab.get 0 m.groupsLatch i

def St.seed (s : W256) : Nat := bits s.toNat 0 128
def St.id (s : W256) : Nat := bits s.toNat 128 32
def St.valid (s : W256) : Bool := bit s.toNat 160
def St.shared (s : W256) : Bool := bit s.toNat 161
def St.owner (s : W256) : Nat := bits s.toNat 162 6

/-! ### The record (Table 9.4) and its layer -/

namespace RuRec
def local_ (r : W1024) : Bool := (Rc.p r 1).testBit 0
def gather (r : W1024) : Bool := (Rc.p r 1).testBit 1
def stream (r : W1024) : Nat := Rc.pf r 1 2 12
def phase (r : W1024) : Nat := Rc.pf r 1 14 16
end RuRec

/-- Group of the tensor in slot 1 (R287). -/
def ruGroup (caps : List Cap) : Nat := match capOf caps 1 with | some x => Ds.pgroup x.desc | none => 0

/-- What the layer covers: whether it is a matrix, columns, owned rows, owned elements, first owned element. -/
structure LayerDim where
  mat : Bool
  n : Nat
  rows : Nat
  cnt : Nat
  first : Nat
deriving DecidableEq, Repr

/-- The dimensions of a layer for the participant with index `k`. -/
def layerDim (r : W1024) (caps : List Cap) (k : Nat) : LayerDim :=
  match capOf caps 0 with
  | some x =>
    let n := max (ringN r) 1
    let mat := x.rank == 2
    let cnt := x.count / n
    { mat := mat, n := if mat then x.ext 0 else 1, rows := if mat then x.ext 1 / n else 0, cnt := cnt,
      first := if ringN r = 1 then 0 else k * cnt }
  | none => { mat := false, n := 1, rows := 0, cnt := 0, first := 0 }

/-! ### Checks (R285-R287, R189, R302, R314) -/

/-- Formats of Table 9.5. -/
def ruFormats (r : W1024) (caps : List Cap) (g : W256) : Bool :=
  let f (s : Nat) : Nat := capFmt caps s
  let d1 := match capOf caps 1 with | some x => Ds.aux x.desc | none => 0
  (CoRec.wire r == G16 || CoRec.wire r == FP32) && !fmtInt (f 0) && f 0 != CODE4
  && (match Gr.master g with
      | 0 => f 1 == FP32 && d1 == 0
      | 1 => f 1 == BF16 && d1 == 3
      | _ => f 1 == BF16 && d1 == 0)
  && (f 2 == FP32 || f 2 == BF16) && f 3 == FP32 && ((capOf caps 4).isNone || f 4 == FP32) && (f 5 == G16 || f 5 == FP32)

/-- Shapes of Table 9.5. -/
def ruShapes (r : W1024) (caps : List Cap) : Bool :=
  match capOf caps 0 with
  | none => false
  | some x =>
    let n := max (ringN r) 1
    let is (s : Nat) (l : List Nat) : Bool :=
      match capOf caps s with | some y => y.rank == l.length && y.exts == l ++ List.replicate (4 - l.length) 1 | none => true
    if x.rank = 2 then
      let c := x.ext 0
      let rw := x.ext 1
      rw % n == 0 && decide (c + 1 ≤ 262144) && (capOf caps 4).isSome
      && is 1 [c, if RuRec.gather r then rw else rw / n] && is 2 [c, rw / n] && is 3 [rw / n] && is 4 [c + 1] && is 5 [c, rw / n]
    else
      let c := x.count
      x.rank == 1 && c % n == 0 && (capOf caps 4).isNone
      && is 1 [if RuRec.gather r then c else c / n] && is 2 [c / n] && is 3 [c / n] && is 5 [c / n]

/-- Buffers (R189): d1 and d2 always have two, the rest when the group is protected. -/
def ruBuffers (caps : List Cap) (g : W256) : Bool :=
  caps.all fun x => x.slot == 0 || Ds.ab x.desc || (decide (3 ≤ x.slot) && !Gr.protect g)

/-- Checks 7 to 9 of a `REDUCE_UPDATE` of context `c`. -/
def ruCheck (c : Nat) (m : Mod) (r : W1024) (caps : List Cap) : Status :=
  let g := m.group (ruGroup caps)
  let s := Tab.get 0 m.streamsLatch (RuRec.stream r)
  let st := m.get F.STEP_STAT_state c
  if !m.featOk [16 + b2n (Gr.exact g), 18 + Gr.master g] then ST_UNSUPPORTED
  else if !RuRec.local_ r && !m.hasAddress then ST_NO_ROUTE
  else if CoRec.red r ≠ 0 || (!RuRec.local_ r && !m.ringOk r) || !Gr.valid g then ST_BAD_ATTR
  else if Gr.owner g ≠ c then ST_ACCESS_DENIED
  else if (if Gr.master g = 2 then !St.valid s || St.owner s != c else RuRec.stream r != 0 || RuRec.phase r != 0) then ST_BAD_ATTR
  else if !ruFormats r caps g then ST_BAD_FORMAT
  else if !ruShapes r caps then ST_BAD_SHAPE
  else if !ruBuffers caps g then ST_BAD_ATTR
  else if caps.any (fun x => Ds.scale x.desc != 0x3F800000) then ST_BAD_SCALE
  else if caps.any (fun x => Pl.steerEn (Ds.plan x.desc)) then ST_BAD_PLAN
  else if !m.stepOpen c then ST_NO_STEP
  else if st ≠ 1 then ST_STEP_ORDER
  else if caps.any (fun x => decide (1 ≤ x.slot) && decide (x.slot ≤ 4) && (m.ctx c).named.contains (m.capIdx c x)) then ST_STEP_ORDER
  else ST_OK

/-- Issues a `REDUCE_UPDATE`. -/
def Mod.issueReduceUpdate (m : Mod) (i : Nat) (errs : List MemErr) : Mod :=
  m.issue i 0x55 (ruCheck (qCtx i)) fun m r caps =>
    let c := qCtx i
    let x := m.ctx c
    let named := (caps.filter fun y => decide (1 ≤ y.slot) && decide (y.slot ≤ 4)).map (m.capIdx c)
    let prot := (caps.filter fun y => decide (1 ≤ y.slot) && Ds.ab y.desc).map (m.capIdx c)
    let m := m.setCtx c { x with named := x.named ++ named, prot := prot.foldl (fun l j => insertNew j l) x.prot }
    let m := m.meetErrors (some i) 0 errs
    if m.running i then m.collQueue i r else m

/-! ### State tensors (R288, R294, R295) -/

/-- A write by an update engine in the mode of its region (R204): every MiB it touches becomes dirty (R288, R342). -/
def Mod.wrEng (m : Mod) (fine : Bool) (pa : Nat) (l : List Byte) : Mod :=
  let m := m.wrInt pa l fine
  m.each ((List.range (ceilDiv (pa % 2 ^ 20 + l.length) (2 ^ 20))).map (pa / 2 ^ 20 + ·)) fun m x =>
    { m with dirty := Tab.set false m.dirty x true }

/-- Start of the buffer that the engines write: the alternate one, or the only one. -/
def Cap.altBase (x : Cap) : Nat := Rgn.base x.rgn + Ds.altOff x.desc

/-- Value of element `i` of a state tensor's buffer at `base`: a poisoned word is the canonical NaN. -/
def Mod.stVal (m : Mod) (x : Cap) (base i : Nat) : Num × Bool :=
  let w := fmtWidth x.fmt / 8
  let sp := x.fmt == G16 && m.poisonedIn (base + Ds.auxOff x.desc + 4 * (i / 32768)) 4
  if m.poisonedIn (base + i * w) w || sp then (.nan false false, true)
  else
    let v := decodeF x.fmt (m.rdNat (base + i * w) w)
    (if x.fmt = G16 then v.mulR (num32 (m.rdNat (base + Ds.auxOff x.desc + 4 * (i / 32768)) 4)) else v, false)

/-- Elements [`e`, `e` + `n`) of a state tensor's buffer, and whether poison was met. -/
def Mod.stVals (m : Mod) (x : Cap) (base e n : Nat) : List Num × Bool :=
  let l := (List.range n).map fun i => m.stVal x base (e + i)
  (l.map (·.1), l.any (·.2))

/-- The accesses that read elements [`e`, `e` + `n`) of a state tensor's buffer at `base`: the data plane, and the remainders of
`SPLIT` or the chunk scales (R204). -/
def Mod.readState (m : Mod) (x : Cap) (base e n : Nat) : Mod :=
  let w := fmtWidth x.fmt / 8
  let m := m.reach (Rgn.fine x.rgn) .rd (base + e * w) (n * w)
  let aux (a n : Nat) : Mod := m.reach (Rgn.fine x.rgn) .rd (base + Ds.auxOff x.desc + a) n
  if Ds.aux x.desc = 3 then aux (2 * e) (2 * n)
  else if x.fmt = G16 then aux (4 * (e / 32768)) (4 * (ceilDiv (e + n) 32768 - e / 32768)) else m

/-- The same for optional slots, each from its current buffer or (`alt`) the one written, from its first element on. -/
def Mod.readSlots (m : Mod) (caps : List Cap) (l : List (Nat × Bool × Nat)) : Mod :=
  l.foldl (fun m s => match capOf caps s.1 with
    | some x => m.readState x (if s.2.1 then x.altBase else x.base) 0 s.2.2
    | none => m) m

/-- As `stVals` of an optional slot, from its current buffer or (`alt`) the buffer written. -/
def Mod.slotState (m : Mod) (caps : List Cap) (s : Nat) (alt : Bool) (e n : Nat) : List Num × Bool :=
  match capOf caps s with
  | some x => m.stVals x (if alt then x.altBase else x.base) e n
  | none => ([], false)

/-- Writes values from element `e` of the buffer that the engines write; the written extent becomes dirty. -/
def Mod.stWrite (m : Mod) (x : Cap) (e : Nat) (cs : List Nat) : Mod :=
  let w := fmtWidth x.fmt / 8
  m.wrEng (Rgn.fine x.rgn) (x.altBase + e * w) (cs.flatMap (leBytes w))

/-- The alternate buffer of tensor `j` no longer holds its old state (Table 11.1, `alt_valid`). -/
def Mod.altWritten (m : Mod) (c j : Nat) : Mod :=
  m.castMap c fun e => if Ce.desc e = j then Ce.put e 255 1 0 else e

/-- Marks the buffers of a captured tensor as written by the engines. -/
def Mod.stTouched (m : Mod) (c : Nat) (x : Cap) : Mod := if Ds.ab x.desc then m.altWritten c (m.capIdx c x) else m

/-! ### Master modes (R300, R301) -/

/-- Exponent of the unit of a `SPLIT` remainder. -/
def shaveExp (hi : Num) : Int :=
  match hi with
  | .fin _ m e => if m = 0 || ilog m e < -126 then -149 else ilog m e - 23
  | _ => -149

/-- The master value of element `i`. -/
def Mod.masterVal (m : Mod) (x : Cap) (mode i : Nat) : Num × Bool :=
  let hi := m.stVal x x.base i
  if mode = 1 then
    let a := x.base + Ds.auxOff x.desc + 2 * i
    let sh := signed 16 (m.rdNat a 2)
    if m.poisonedIn a 2 then (.nan false false, true)
    else if !hi.1.isFin then hi
    else ((hi.1.add (.fin (decide (sh < 0)) sh.natAbs (shaveExp hi.1))).r32, hi.2)
  else hi

/-- `store_master`: the code of the high plane or of the whole, the remainder, and the value stored. -/
def storeMaster (mode : Nat) (x : Num) (v : Nat) : Nat × Nat × Num :=
  match mode with
  | 0 => (patOf x, 0, x)
  | 1 =>
    let hi := x.rbf
    let sh := match hi.isFin, (x.add hi.neg) with
      | true, .fin s m e => max (-32768) (min 32767 (rneInt s m (e - shaveExp hi)))
      | _, _ => 0
    ((encodeF BF16 true hi).1, unsigned 16 sh, hi)
  | _ =>
    if x.isFin then
      let b := x.pat32
      let c := if 65536 ≤ b % 65536 + v then b / 65536 + 1 else b / 65536
      (c, 0, decodeF BF16 c)
    else
      let hi := x.rbf
      ((encodeF BF16 true hi).1, 0, hi)

/-! ### Statistics and the update rule (R290, R291) -/

/-- RNE32(RNE32(a·x) + RNE32(b·y)). -/
def lin2 (a x b y : Num) : Num := (a.mulR x).addR (b.mulR y)

/-- `lin2` along two lists. -/
def lin2s (a : Num) (x : List Num) (b : Num) (y : List Num) : List Num := (x.zip y).map fun p => lin2 a p.1 b p.2

/-- Row sums, column sums and total of the squares of the owned rows (R290). -/
def rowStats (n rows : Nat) (g : List Num) : List Num × List Num :=
  let sq := g.map fun v => v.mulR v
  let rowsL := (List.range rows).map fun i => (sq.drop (i * n)).take n
  let a := rowsL.map vecSum
  let b := (List.range n).map fun j => rowsL.foldl (fun t r => t.addR (r.getD j .zero)) .zero
  (a, b ++ [a.foldl Num.addR .zero])

/-- Group values as FP32 numbers with the factors that a clip factor leads to. -/
structure GroupNum where
  eta : Num
  decay : Num
  b1 : Num
  b2 : Num
  eps : Num
  k1 : Num
  k2 : Num
deriving DecidableEq, Repr

/-- The factors of a group for a clip factor (R290, R291). -/
def groupNum (g : W256) (clip : Num) : GroupNum :=
  let b1 := num32 (Gr.beta1 g)
  let b2 := num32 (Gr.beta2 g)
  { eta := num32 (Gr.eta g), decay := num32 (Gr.decay g), b1 := b1, b2 := b2, eps := num32 (Gr.eps g),
    k1 := (Num.one.addR b1.neg).mulR clip, k2 := (Num.one.addR b2.neg).mulR (clip.mulR clip) }

/-- +0. -/
def isPosZero : Num → Bool
  | .fin false m _ => m == 0
  | _ => false

/-- One element (R291): new momentum and unrounded master. -/
def updElem (q : GroupNum) (g mo w vh : Num) : Num × Num :=
  let m' := lin2 q.b1 mo q.k1 g
  let d := vh.sqrt.addR q.eps
  let t := (m'.div d).addR (q.decay.mulR w)
  (m', w.addR (q.eta.mulR t).neg)

/-- The elements of a layer: momentum and master are read from the current buffers, updated and written; the result is
the events that R282 counts (non-finite values made of finite ones, and the conversion events of the two stores), the events of
the stored momentum, and whether poison was met. -/
def Mod.updElems (m : Mod) (r : W1024) (caps : List Cap) (dim : LayerDim) (grp : W256) (q : GroupNum) (step : Nat)
    (g vh : List Num) : Nat × Stat × Bool × Mod :=
  match capOf caps 1, capOf caps 2 with
  | some d1, some d2 =>
    let mode := Gr.master grp
    let s := Tab.get 0 m.streamsLatch (RuRec.stream r)
    let e0 := if RuRec.gather r then dim.first else 0
    let ws := (List.range dim.cnt).map fun i => m.masterVal d1 mode (e0 + i)
    let (ms, p2) := m.stVals d2 d2.base 0 dim.cnt
    let m := (m.readState d1 d1.base e0 dim.cnt).readState d2 d2.base 0 dim.cnt
    let t2 : Target := { fmt := d2.fmt, scale := 0x3F800000, ns := Pl.nonsat (Ds.plan d2.desc) }
    let out := (List.range dim.cnt).map fun i =>
      let gi := g.getD i .zero
      let wi := (ws.getD i (.zero, false)).1
      let mi := ms.getD i .zero
      let (m', x) := updElem q gi mi wi (vh.getD i .zero)
      let v := if mode = 2 then streamValue (St.seed s) (St.id s) step (RuRec.phase r) (dim.first + i) else 0
      let (c, sh, w') := storeMaster mode x v
      let (c2, ev) := t2.code m'
      let made := b2n (gi.isFin && wi.isFin && mi.isFin && (!w'.isFin || !m'.isFin || ev.nf))
      (c, sh, c2, made + b2n ev.sat + b2n ev.uf, ev)
    let m := m.stWrite d2 0 (out.map (·.2.2.1))
    let m := m.stWrite d1 e0 (out.map (·.1))
    let m := if mode = 1 then
        m.wrEng (Rgn.fine d1.rgn) (d1.altBase + Ds.auxOff d1.desc + 2 * e0) (out.flatMap fun x => leBytes 2 x.2.1)
      else m
    ((out.map (·.2.2.2.1)).sum, (out.map (·.2.2.2.2)).foldl Stat.events {}, p2 || ws.any (·.2), m)
  | _, _ => (0, {}, false, m)

/-! ### Passes over a layer (R292, R293, R299, R483) -/

/-- The whole of a pass once the column sums `bA` are known (matrix) or from the retained gradient alone (vector): new
statistics, and the elements when `elems`. `first` is the first pass, which leaves in-place statistics alone (R483). -/
def Mod.updPass (m : Mod) (j : Job) (o : Op) (dim : LayerDim) (bA : List Num) (a : List Num) (elems first : Bool) : Mod :=
  let c := j.ctx
  let grp := m.group (ruGroup o.caps)
  let q := groupNum grp (num32 o.co.clip)
  let (g, p5) := m.slotState o.caps 5 true 0 dim.cnt
  let m := m.readSlots o.caps [(5, true, dim.cnt), (3, false, if dim.mat then dim.rows else dim.cnt), (4, false, dim.n + 1)]
  let keep (s : Nat) : Bool := !first || (match capOf o.caps s with | some x => Ds.ab x.desc | none => false)
  let (vh, p3, m) : List Num × Bool × Mod :=
    if dim.mat then
      let (r, p3) := m.slotState o.caps 3 false 0 dim.rows
      let (s, p4) := m.slotState o.caps 4 false 0 (dim.n + 1)
      let r' := lin2s q.b2 r q.k2 a
      let s' := lin2s q.b2 s q.k2 bA
      let prim := Gr.exact grp || isPosZero (s.getD dim.n .zero)
      let rr := if prim then r' else r
      let ss := if prim then s' else s
      let tot := ss.getD dim.n .zero
      let vh := (List.range dim.cnt).map fun i =>
        if isPosZero tot then Num.zero else ((rr.getD (i / dim.n) .zero).mulR (ss.getD (i % dim.n) .zero)).div tot
      let m := match capOf o.caps 3 with | some x => if keep 3 then m.stWrite x 0 (r'.map patOf) else m | none => m
      let m := match capOf o.caps 4 with | some x => if keep 4 then m.stWrite x 0 (s'.map patOf) else m | none => m
      (vh, p3 || p4, m)
    else
      let (v, p3) := m.slotState o.caps 3 false 0 dim.cnt
      let v' := lin2s q.b2 v q.k2 (g.map fun x => x.mulR x)
      let m := match capOf o.caps 3 with | some x => if keep 3 then m.stWrite x 0 (v'.map patOf) else m | none => m
      (v', p3, m)
  let (nf, st, p, m) := if elems then m.updElems o.rcd o.caps dim grp q (m.get F.STEP_CUR_step c) g vh else (0, {}, false, m)
  -- a record of d2 takes its events, and its non-finite ones enter the context's total through it
  let (own, m) := match capOf o.caps 2 with
    | some x =>
      if capStats c x && st != ({} : Stat) then (st.nNf, m.firstRun c (Rc.layer o.rcd) 0xFF [{ cap := x, fmt := x.fmt, stat := st }])
      else (0, m)
    | none => (0, m)
  let m := m.engineNf c (nf - own)
  let m := o.caps.foldl (fun m x => if x.slot = 0 then m else m.stTouched c x) m
  if p5 || p3 || p then
    let m := m.modJob j fun o => { o with status := orStatus o.status ST_MEM_UNCORR }
    if first then m else m.setCtx c { m.ctx c with updErr := true }
  else m

/-- A layer is done: its operation may complete, or the update phase goes on. -/
def Mod.updEnd (m : Mod) (j : Job) : Mod :=
  let m := match m.jobOp j with | some o => m.showEngine j o none | none => m
  let m := m.modColl j fun k => { k with ring := none, phase := 4 }
  match j, m.jobOp j with
  | .q i, some o =>
    let c := j.ctx
    let m := m.setCtx c { m.ctx c with layers := (m.ctx c).layers ++ [{ o with coll := some { phase := 4 } }] }
    m.modOp i fun o => { o with ready := true }
  | _, _ => m

/-- Wire format and code of one master row element: `SPLIT` carries both planes (log entry 34). -/
def rowsFmt (mode : Nat) : Nat := if mode = 2 then BF16 else FP32

/-- The exchange of updated rows (R289). -/
def Mod.updGather (m : Mod) (j : Job) (o : Op) (dim : LayerDim) : Mod :=
  if !RuRec.gather o.rcd || ringN o.rcd = 1 then m.updEnd j
  else
    match capOf o.caps 1 with
    | none => m.updEnd j
    | some d1 =>
      let mode := Gr.master (m.group (ruGroup o.caps))
      let own := (List.range dim.cnt).map fun i =>
        let w := fmtWidth d1.fmt / 8
        m.rdNat (d1.altBase + (dim.first + i) * w) w
          + if mode = 1 then m.rdNat (d1.altBase + Ds.auxOff d1.desc + 2 * (dim.first + i)) 2 * 65536 else 0
      let m := (m.readState d1 d1.altBase dim.first dim.cnt).modColl j fun k => { k with phase := 3 }
      let m := m.showEngine j o (some false)
      m.ringBegin j { kind := 2, ptype := 0x13, n := dim.cnt * ringN o.rcd, fmt := rowsFmt mode, k := m.ringIdx o.rcd, x := own }

/-- Writes the rows received from the other participants into the buffer written of d1 (R289). -/
def Mod.updRows (m : Mod) (j : Job) (o : Op) (g : Ring) : Mod :=
  match capOf o.caps 1 with
  | none => m.updEnd j
  | some d1 =>
    let dim := layerDim o.rcd o.caps g.k
    let mode := Gr.master (m.group (ruGroup o.caps))
    let m := ((List.range g.n).filter fun e => e / max dim.cnt 1 != g.k).foldl (fun m e =>
      let v := Tab.get 0 g.res e
      let w := fmtWidth d1.fmt / 8
      let m := m.wrEng (Rgn.fine d1.rgn) (d1.altBase + e * w) (leBytes w v)
      if mode = 1 then m.wrEng (Rgn.fine d1.rgn) (d1.altBase + Ds.auxOff d1.desc + 2 * e) (leBytes 2 (v / 65536)) else m) m
    m.updEnd j

/-- The column sums are known: what the pass does with them. -/
def Mod.updStats (m : Mod) (j : Job) (o : Op) (bA : List Num) : Mod :=
  let dim := layerDim o.rcd o.caps (m.ringIdx o.rcd)
  let grp := m.group (ruGroup o.caps)
  let (g, p5) := m.slotState o.caps 5 true 0 dim.cnt
  let a := if dim.mat then (rowStats dim.n dim.rows g).1 else []
  if o.co.pass = 0 && Gr.exact grp then
    -- statistics phase of EXACT: the raw sums
    let put (m : Mod) (s : Nat) (l : List Num) : Mod := match capOf o.caps s with
      | some x => if dim.mat && Ds.ab x.desc then (m.stWrite x 0 (l.map patOf)).stTouched j.ctx x else m
      | none => m
    let m := if p5 then m.modJob j fun o => { o with status := orStatus o.status ST_MEM_UNCORR } else m
    ((put (put m 3 a) 4 bA).modColl j fun k => { k with ring := none }).updEnd j
  else
    let m := m.updPass j o dim bA a (o.co.pass != 2) (o.co.pass == 0)
    let m := m.modColl j fun k => { k with ring := none }
    if o.co.pass = 2 then m.updEnd j else m.updGather j o dim

/-- Begins the statistics of a layer from its retained gradient: the column sums are all-reduced over the ring (R290). -/
def Mod.updSums (m : Mod) (j : Job) (o : Op) : Mod :=
  let dim := layerDim o.rcd o.caps (m.ringIdx o.rcd)
  if !dim.mat then m.updStats j o []
  else
    let (g, _) := m.slotState o.caps 5 true 0 dim.cnt
    let bA := (rowStats dim.n dim.rows g).2
    let m := m.readSlots o.caps [(5, true, dim.cnt)]
    if ringN o.rcd = 1 then m.updStats j o bA
    else
      let m := (m.modColl j fun k => { k with phase := 2 }).showEngine j o (some true)
      m.ringBegin j { kind := 1, base := ringN o.rcd - 1, n := dim.n + 1, fmt := FP32, k := m.ringIdx o.rcd, x := bA.map patOf }

/-- Adds the squares of the owned elements to the context's norm accumulator (R296). -/
def Mod.normAdd (m : Mod) (c : Nat) (g : List Num) : Mod :=
  let sq := g.map fun v => v.mulR v
  let add := (sq.map fun v => match v with | .fin _ m e => m * 2 ^ (e + 149).toNat / 2 ^ (-(e + 149)).toNat | _ => 0).sum
  let x := m.ctx c
  m.setCtx c { x with normAcc := x.normAcc + add, normNf := x.normNf || sq.any fun v => !v.isFin }

/-- The reduced shard goes to the update engines: the retained gradient is stored, the norm partial formed, and the
statistics begin. -/
def Mod.updStore (m : Mod) (j : Job) (o : Op) : Mod :=
  let c := j.ctx
  match capOf o.caps 5 with
  | none => m
  | some d5 =>
    let dim := layerDim o.rcd o.caps (m.ringIdx o.rcd)
    let t : Target := { fmt := d5.fmt, scale := 0x3F800000 }
    let pl := t.store (o.co.g.map fun v => some (num32 v))
    let (ws, m) := m.packPlane d5.altBase (d5.altBase + Ds.auxOff d5.desc) d5.fmt pl none
    let m := (segments ws.whole).foldl (fun m w => m.wrEng (Rgn.fine d5.rgn) w.1 w.2) m
    let m := m.stTouched c d5
    let m := m.engineNf c (pl.stat.nSat + pl.stat.nUf + pl.stat.nNf)
    let (g, _) := m.slotState o.caps 5 true 0 dim.cnt
    (m.normAdd c g).updSums j o

/-- Whether a write of the engines into a buffer that the last flip released must wait (R330). -/
def Mod.altHold (m : Mod) (c : Nat) (js : List Nat) : Bool :=
  let x := m.ctx c
  x.kNow == 1
  && (m.on F.CAST_CFG_hold c || x.castList.any fun e => Ce.method e == 2 || Ce.method e == 3)
  && (match x.drain with | some d => d.step.toNat == m.get F.STEP_COMMITTED_step c | none => false)
  && js.any fun j => x.released.contains j

/-- The reduced shard `vals` is at hand. -/
def Mod.updShard (m : Mod) (j : Job) (vals : List Nat) : Mod :=
  let m := m.modColl j fun k => { k with ring := none, g := vals }
  match m.jobOp j with
  | none => m
  | some o =>
    if m.altHold j.ctx ((o.caps.filter fun x => x.slot != 0).map (m.capIdx j.ctx)) then
      m.modColl j fun k => { k with phase := 1, since := m.time }
    else m.updStore j o

/-- The waits of R330 of context `c` end; their time has been counted (`Mod.waitsCount`). -/
def Mod.holdsEnd (m : Mod) (c : Nat) : Mod :=
  m.each (ctxQueues c) fun m i => match (m.queue i).op with
    | some o =>
      if o.co.phase = 1 then
        (m.modColl (.q i) fun k => { k with phase := 0 }).updStore (.q i) o
      else m
    | none => m

/-! ### What finishes an exchange -/

/-- The exchange of `j` has received and sent everything. -/
def Mod.ringDone (m : Mod) (j : Job) (o : Op) (g : Ring) : Mod :=
  if Rc.opcode o.rcd = 0x55 then
    let m := m.engineNf j.ctx g.events
    if g.ptype = 0x13 then m.updRows j o g
    else if o.co.phase = 2 then m.updStats j o ((List.range g.n).map fun e => num32 (Tab.get 0 g.res e))
    else
      let dim := layerDim o.rcd o.caps g.k
      m.updShard j ((List.range dim.cnt).map fun e => Tab.get 0 g.res (dim.first + e))
  else match j with
    | .q i => m.collFinish i o g
    | .layer _ _ => m

/-- Sends what can go, and goes on when the exchange is finished. `k` bounds the exchanges that follow one another. -/
def Mod.ringStep (m : Mod) (j : Job) : Nat → Mod
  | 0 => m
  | k + 1 =>
    let m := m.ringFlush j
    match m.jobOp j with
    | some o => match o.co.ring with
      | some g => if g.finished o.rcd then (m.ringDone j o g).ringStep j k else m
      | none => m
    | none => m

/-! ### Packets of exchanges -/

/-- Tag, direction and offset of a packet (R274). -/
def Pk.tag (p : Packet) : Nat := bits p.hdr.opq.toNat 0 32
def Pk.dir (p : Packet) : Nat := bits p.hdr.opq.toNat 32 1
def Pk.off (p : Packet) : Nat := bits p.hdr.opq.toNat 33 31

/-- Operations of context `c` with the tag of a packet that hold an engine or run in the update phase. -/
def Mod.jobsOf (m : Mod) (c tag : Nat) : List Job :=
  ((ctxQueues c).filter fun i => match (m.queue i).op with
    | some o => o.co.engine.isSome && !o.ready && CoRec.tag o.rcd == tag
    | none => false).map .q
  ++ ((List.range (m.ctx c).layers.length).filter fun k => match (m.ctx c).layers[k]? with
    | some o => CoRec.tag o.rcd == tag && !RuRec.local_ o.rcd
    | none => false).map (.layer c)

/-- Whether a holder is a queue. -/
def Job.queued : Job → Bool
  | .q _ => true
  | .layer _ _ => false

/-- Compares a `COLL_READY` with an operation (R275): true where they agree. -/
def readyAgrees (o : Op) (pl : Payload) : Bool :=
  match pl, capOf o.caps 0 with
  | .collReady op p0 n f s, some src =>
    op.toNat == Rc.opcode o.rcd && p0.toNat == Rc.p o.rcd 0 && n == src.count
    && (!(decide (0x52 ≤ Rc.opcode o.rcd) && decide (Rc.opcode o.rcd ≤ 0x54)) || (f.toNat == src.fmt && s.toNat == Ds.scale src.desc))
  | _, _ => false

/-- A `COLL_READY` for operation `j`. -/
def Mod.readyFor (m : Mod) (j : Job) (p : Packet) : Mod :=
  match m.jobOp j with
  | none => m
  | some o =>
    if !readyAgrees o p.payload then m.jobAbort j ST_COLL_MISMATCH
    else
      let m := m.modColl j fun k => if (Pk.dir p) = 0 then { k with readyPlus := true } else { k with readyMinus := true }
      (m.showWaiting j).ringStep j 8

/-- Whether the running exchange of `j` takes a packet now. -/
def Mod.ringTakes (m : Mod) (j : Job) (p : Packet) : Bool :=
  match m.jobOp j with
  | some o => match o.co.ring with
    | some g =>
      let k := ((Pk.dir p), p.hdr.bseq.toNat, (Pk.off p))
      g.ptype == p.hdr.ptype.toNat && decide (g.got.count k < (g.expect o.rcd).count k)
    | none => false
  | none => false

/-- A `COLL_DATA` or `GATHER_ROWS` packet for operation `j`. -/
def Mod.dataFor (m : Mod) (j : Job) (p : Packet) : Mod :=
  match m.jobOp j, p.payload with
  | some o, .bytes l => match o.co.ring with
    | some g =>
      let m := match j, o.co.engine with | .q _, some e => m.set F.COL_STAT_stage e p.hdr.bseq.toNat | _, _ => m
      let m := m.modColl j fun k => { k with ring := some (g.recv o.rcd (Pk.dir p) p.hdr.bseq.toNat (Pk.off p) l) }
      m.ringStep j 8
    | none => m
  | _, _ => m

/-- A packet that no operation takes: counted as misrouted at the port it came through (R251, R375). -/
def Mod.misroute (m : Mod) (port : Nat) : Mod := if port < 8 then m.bump F.LNK_DROP_misroute port 1 else m

/-- A packet of an exchange arrives (COLL_READY_RECEIVE, COLL_DATA_RECEIVE, GATHER_ROWS_RECEIVE). A `COLL_READY` that is
early waits for its collective; data that are early wait for their exchange. -/
def Mod.collPacket (m : Mod) (port : Nat) (p : Packet) : Mod :=
  let js := m.jobsOf p.hdr.ctx.toNat (Pk.tag p)
  if (m.ctx p.hdr.ctx.toNat).deadTags.contains (Pk.tag p) then m.misroute port
  else if p.hdr.ptype = 0x10 then
    match js.find? Job.queued with
    | some j => m.readyFor j p
    | none => { m with early := m.early ++ [p] }
  else
    match js.find? fun j => m.ringTakes j p with
    | some j => m.dataFor j p
    | none => if js.isEmpty then m.misroute port else { m with early := m.early ++ [p] }

/-- Hands early packets to the operations that have come to take them. `k` bounds the hand-overs. -/
def Mod.replayColl (m : Mod) : Nat → Mod
  | 0 => m
  | k + 1 =>
    let take (p : Packet) : Bool :=
      if p.hdr.ptype = 0x10 then (m.jobsOf p.hdr.ctx.toNat (Pk.tag p)).any Job.queued
      else (p.hdr.ptype = 0x11 || p.hdr.ptype = 0x13) && (m.jobsOf p.hdr.ctx.toNat (Pk.tag p)).any fun j => m.ringTakes j p
    match m.early.find? take with
    | none => m
    | some p => (({ m with early := m.early.erase p }).collPacket 8 p).replayColl k

/-! ### Starting (COLL_ENGINE_START, R273) -/

/-- Starts a `REDUCE_UPDATE`: its gradient is read, and its reduce-scatter begins unless it is local (R285). -/
def Mod.updRing (m : Mod) (i : Nat) (o : Op) : Mod :=
  match capOf o.caps 0 with
  | none => m
  | some src =>
    let m := m.readCap src
    let (x, st) := m.fp32Source src
    let m := (m.modOp i fun o => { o with status := st }).engineNf (qCtx i) (nfCount x)
    if ringN o.rcd = 1 then m.updShard (.q i) x
    else
      let m := m.sendReady (.q i)
      m.ringBegin (.q i) { kind := 0, n := src.count, fmt := CoRec.wire o.rcd, k := m.ringIdx o.rcd, x := x }

/-- The exchange of the operation of queue `i` begins on the engine it has taken: its ring, and the packets that came early
(R273, R275). -/
def Mod.engineGo (m : Mod) (i : Nat) : Mod :=
  match (m.queue i).op with
  | none => m
  | some o =>
    let m := if Rc.opcode o.rcd = 0x55 then m.updRing i o else m.collRing i o
    let m := m.ringStep (.q i) 8
    m.replayColl m.early.length

/-- A waiting collective is granted the free engine `e`. -/
def Mod.engineStart (m : Mod) (e : Nat) : Mod :=
  let d := e / 4
  match m.collWait d with
  | [] => m
  | i :: rest =>
    if m.on F.COL_STAT_busy e then m
    else match (m.queue i).op with
      | none => m.setCollWait d rest
      | some o => ((m.setCollWait d rest).engineTake i e o.rcd).engineGo i

/-! ### Update passes (R293, R296 step 3, R299, R483) -/

/-- Whether a layer has its statistics in place. -/
def inPlaceStats (o : Op) : Bool := o.caps.any fun x => (x.slot == 3 || x.slot == 4) && !Ds.ab x.desc

/-- The pass that a layer calls for with clip factor `clip`; none when it is not touched. -/
def passOf (exact : Bool) (o : Op) (clip : Num) : Option Nat :=
  if exact then some 1
  else if clip.lt false .one then some 1
  else if inPlaceStats o then some 2 else none

/-- Begins the pass of layer `k` of context `c` with clip factor `clip`. -/
def Mod.passStart (m : Mod) (c k pass clip : Nat) : Mod :=
  let j := Job.layer c k
  let m := m.modJob j fun o => { o with
    coll := some { engine := none, readyPlus := true, readyMinus := true, pass := pass, clip := clip } }
  match m.jobOp j with
  | none => m
  | some o =>
    let dim := layerDim o.rcd o.caps (m.ringIdx o.rcd)
    let m := if Gr.exact (m.group (ruGroup o.caps)) && dim.mat && !inPlaceStats o then
        -- the raw sums stand in the alternate buffers of d3 and d4
        let (a, p3) := m.slotState o.caps 3 true 0 dim.rows
        let (bA, p4) := m.slotState o.caps 4 true 0 (dim.n + 1)
        let m := m.readSlots o.caps [(3, true, dim.rows), (4, true, dim.n + 1)]
        let m := if p3 || p4 then m.setCtx c { m.ctx c with updErr := true } else m
        (m.updPass j o dim bA a true false).updGather j o dim
      else m.updSums j o
    m.ringStep j 8

end Sys2Proof.Machine
end

