-- ==== Sys2Proof/Machine/Span.lean ====
section
/-! DEFINITION. Span reductions (R297): one value from every module of a span, combined axis by axis. The kinds are 0 the
vote (R318), 1 the norm (R296), 2 cast completion (R328). -/

namespace Sys2Proof.Machine

/-! ### Spans -/

def Sp.lo (w : W64) (a : Nat) : Nat := bits w.toNat (16 * a) 6
def Sp.len (w : W64) (a : Nat) : Nat := bits w.toNat (16 * a + 6) 7

/-- Whether a span obeys R297 in the present shape. -/
def Mod.spanOk (m : Mod) (w : W64) : Bool :=
  (List.range 4).all fun a =>
    decide (Sp.lo w a < m.extent a) && decide (1 ≤ Sp.len w a) && decide (Sp.len w a ≤ 64) && decide (Sp.len w a ≤ m.extent a)

/-- Index of a coordinate within a span's axis. -/
def Mod.spanIdx (m : Mod) (w : W64) (a x : Nat) : Nat := let e := max (m.extent a) 1; (x + e - Sp.lo w a % e) % e

/-- Whether an address lies in a span. -/
def Mod.spanHas (m : Mod) (w : W64) (addr : Nat) : Bool :=
  (List.range 4).all fun a => decide (m.spanIdx w a (coord addr a) < Sp.len w a)

/-- Logical address of the member next on axis `a` in direction `d`. -/
def Mod.spanNext (m : Mod) (w : W64) (a d : Nat) : Nat :=
  let n := max (Sp.len w a) 1
  let k := m.spanIdx w a (coord m.logical a)
  setCoord m.logical a ((Sp.lo w a + (if d = 0 then k + 1 else k + n - 1) % n) % max (m.extent a) 1)

/-! ### Values -/

/-- The operator of a reduction: AND and OR of votes, an exact sum, AND of completions. -/
def joinVals (a b : SpanVal) : SpanVal :=
  match a, b with
  | .vote c h, .vote c' h' => .vote (c && c') (h || h')
  | .norm x n, .norm y n' => .norm (x + y) (n || n')
  | .cast g d, .cast g' d' => .cast g (d && d' && g == g')
  | a, _ => a

/-- Kind of the reduction that a value belongs to. -/
def valKind : SpanVal → Nat
  | .vote _ _ => 0
  | .norm _ _ => 1
  | .cast _ _ => 2

/-! ### Reductions of a context -/

/-- The reduction of a kind. -/
def Mod.spanRed (m : Mod) (c kind : Nat) : Option SpanRed :=
  match kind with
  | 0 => (m.ctx c).vote
  | 1 => (m.ctx c).normRed
  | _ => (m.ctx c).castRed

/-- Replaces the reduction of a kind. -/
def Mod.setSpanRed (m : Mod) (c kind : Nat) (r : Option SpanRed) : Mod :=
  let x := m.ctx c
  m.setCtx c (match kind with
    | 0 => { x with vote := r }
    | 1 => { x with normRed := r }
    | _ => { x with castRed := r })

/-- Sends a value on axis `a` in direction `d`. -/
def Mod.spanSend (m : Mod) (c : Nat) (r : SpanRed) (a d x : Nat) (v : SpanVal) : Mod :=
  m.sendTo (some c) 0 0x12 (m.spanNext r.span a d) (.span (Fin.ofNat 4 a) (BitVec.ofNat 6 x) v) 0 (coOpaque r.tag d 0)

/-- Sends this module's value on the axis reached, both ways as far as each way has a member to reach (R297 step 2, 3). -/
def Mod.spanOffer (m : Mod) (c : Nat) (r : SpanRed) : Mod :=
  let n := Sp.len r.span r.axis
  let x := coord m.logical r.axis
  let m := if 1 ≤ n / 2 then m.spanSend c r r.axis 0 x r.value else m
  if 1 ≤ (n - 1) / 2 then m.spanSend c r r.axis 1 x r.value else m

/-- Takes a reduction past finished axes: an axis of one member is skipped, one with every value combines them; `k` bounds
the axes. -/
def Mod.spanPass (m : Mod) (c kind : Nat) : Nat → Mod
  | 0 => m
  | k + 1 =>
    match m.spanRed c kind with
    | none => m
    | some r =>
      if 4 ≤ r.axis || r.got.length + 1 < Sp.len r.span r.axis then m
      else
        let v := r.got.foldl (fun v g => joinVals v g.2) r.value
        let r := { r with axis := r.axis + 1, value := v, got := [] }
        let m := m.setSpanRed c kind (some r)
        let m := if r.axis < 4 && 2 ≤ Sp.len r.span r.axis then m.spanOffer c r else m
        m.spanPass c kind k

/-- A value of the axis reached, from the member at coordinate `x` in direction `d`: forwarded while members lie ahead of it,
and kept (R297 step 3). -/
def Mod.spanTake (m : Mod) (c kind : Nat) (r : SpanRed) (d x : Nat) (v : SpanVal) : Mod :=
  let a := r.axis
  let n := max (Sp.len r.span a) 1
  let p := m.spanIdx r.span a x
  let k := m.spanIdx r.span a (coord m.logical a)
  let dist := if d = 0 then (k + n - p % n) % n else (p + n - k % n) % n
  let reach := if d = 0 then n / 2 else (n - 1) / 2
  let m := if dist < reach then m.spanSend c r a d x v else m
  if r.got.any (·.1 == p) || n ≤ p || p = k then m
  else (m.setSpanRed c kind (some { r with got := (p, v) :: r.got })).spanPass c kind 5

/-- Whether an early packet belongs to the reduction at the axis it has reached. -/
def spanMatches (c kind : Nat) (r : SpanRed) (p : Packet) : Bool :=
  match p.payload with
  | .span a _ v => p.hdr.ctx.toNat == c && valKind v == kind && Pk.tag p == r.tag && a.val == r.axis
  | _ => false

/-- Takes early values that the reduction has come to; `k` bounds their number. -/
def Mod.spanReplay (m : Mod) (c kind : Nat) : Nat → Mod
  | 0 => m
  | k + 1 =>
    match m.spanRed c kind with
    | none => m
    | some r =>
      match m.early.find? (spanMatches c kind r) with
      | none => m
      | some p => match p.payload with
        | .span _ x v => (({ m with early := m.early.erase p }).spanTake c kind r (Pk.dir p) x.toNat v).spanReplay c kind k
        | _ => m

/-- Begins a reduction. -/
def Mod.spanBegin (m : Mod) (c kind : Nat) (w : W64) (tag : Nat) (v : SpanVal) : Mod :=
  let r : SpanRed := { span := w, tag := tag, axis := 0, value := v }
  let m := m.setSpanRed c kind (some r)
  let m := if 2 ≤ Sp.len w 0 then m.spanOffer c r else m
  (m.spanPass c kind 5).spanReplay c kind m.early.length

/-- The value of a finished reduction. -/
def Mod.spanResult (m : Mod) (c kind : Nat) : Option SpanVal :=
  match m.spanRed c kind with
  | some r => if 4 ≤ r.axis then some r.value else none
  | none => none

/-- Drops early values of a kind of context `c`. -/
def Mod.spanForget (m : Mod) (c kind : Nat) : Mod :=
  { m with early := m.early.filter fun p => match p.payload with
      | .span _ _ v => !(p.hdr.ctx.toNat == c && valKind v == kind)
      | _ => true }

/-- A value arrives for context `c`: it is taken on the axis reached, kept while its axis lies ahead or the reduction has not
begun, and dropped after its axis. -/
def Mod.spanPacket (m : Mod) (p : Packet) : Mod :=
  match p.payload with
  | .span a x v =>
    let c := p.hdr.ctx.toNat
    match m.spanRed c (valKind v) with
    | none => { m with early := m.early ++ [p] }
    | some r =>
      if Pk.tag p ≠ r.tag then { m with early := m.early ++ [p] }
      else if a.val = r.axis then
        let m := m.spanTake c (valKind v) r (Pk.dir p) x.toNat v
        m.spanReplay c (valKind v) m.early.length
      else if r.axis < a.val then { m with early := m.early ++ [p] }
      else m
  | _ => m

end Sys2Proof.Machine
end

