-- ==== Sys2Proof/Machine/Casts.lean ====
section
/-! DEFINITION. Casts (R327-R347): peers, streams, the cast list and store, the step record, and the life of a generation. -/

namespace Sys2Proof.Machine

/-! ### Peers (R337, R338) -/

/-- The mirror receiver of context `c`, or (`back`) its mirror sender. -/
def Mod.mirrorPeer (m : Mod) (c : Nat) (back : Bool) : Nat :=
  let a := m.get F.CAST_CFG_mirror_axis c
  let e := max (m.extent a) 1
  let d := m.get F.CAST_CFG_mirror_dist c
  setCoord m.logical a ((coord m.logical a + if back then e - d % e else d) % e)

/-- `parity_k`. -/
def Mod.parK (m : Mod) (c : Nat) : Nat := m.get F.CAST_CFG_parity_k c

/-- Place of coordinate `x` on the parity axis, from `parity_lo` on. -/
def Mod.parPlace (m : Mod) (c x : Nat) : Nat :=
  let e := max (m.extent (m.get F.CAST_CFG_parity_axis c)) 1
  (x + e - m.get F.CAST_CFG_parity_lo c % e) % e

/-- Member index of this module in its parity group. -/
def Mod.parSelf (m : Mod) (c : Nat) : Nat :=
  m.parPlace c (coord m.logical (m.get F.CAST_CFG_parity_axis c)) % (m.parK c + 1)

/-- Logical address of member `i` of this module's parity group. -/
def Mod.parMember (m : Mod) (c i : Nat) : Nat :=
  let a := m.get F.CAST_CFG_parity_axis c
  let e := max (m.extent a) 1
  let g := m.parPlace c (coord m.logical a) / (m.parK c + 1)
  setCoord m.logical a ((m.get F.CAST_CFG_parity_lo c + g * (m.parK c + 1) + i) % e)

/-- The other members of the parity group, by ascending index; none while parity is off. -/
def Mod.parOthers (m : Mod) (c : Nat) : List Nat :=
  if m.on F.CAST_CFG_parity_en c then
    ((List.range (m.parK c + 1)).filter (· != m.parSelf c)).map (m.parMember c)
  else []

/-- Modules that this one sends casts to, or (`back`) that send casts to it. -/
def Mod.castPeers (m : Mod) (c : Nat) (back : Bool) : List Nat :=
  (if m.on F.CAST_CFG_mirror_en c then [m.mirrorPeer c back] else []) ++ m.parOthers c

/-- Holder of extent `x` of member `i` (R339). -/
def parHolder (k i x : Nat) : Nat := (i + 1 + x % k) % (k + 1)

/-- Extent of member `i` that lies in row `row` at holder `h` (R339). -/
def parExtent (k i h row : Nat) : Nat := k * row + (h + 2 * (k + 1) - i - 1) % (k + 1)

/-! ### Extents of list entries (R336) -/

/-- Descriptor and region of a list entry. -/
def Mod.castDesc (m : Mod) (c : Nat) (e : CastEntry) : W512 := m.desc (m.entryOf c (Ce.desc e))
def Mod.castRgn (m : Mod) (c : Nat) (e : CastEntry) : W256 := m.region c (Ds.region (m.castDesc c e))

/-- Extents of an entry's current (or alternate) buffer. -/
def Mod.castExts (m : Mod) (c : Nat) (e : CastEntry) (alt : Bool) : List Nat :=
  let d := m.castDesc c e
  planeExts (castPlanes (m.castRgn c e) d (if alt then Ds.altOff d else Ds.curOff d))

/-- Whether a method puts an entry into the stream of a kind (0 mirror, 1 parity). -/
def inStream (kind method : Nat) : Bool := if kind = 0 then method == 1 || method == 3 else method == 2 || method == 3

/-- Extents of the stream of a kind, from the current (or alternate) buffers, in stream order. -/
def Mod.castStream (m : Mod) (c kind : Nat) (alt : Bool) : List Nat :=
  ((m.ctx c).castList.filter fun e => inStream kind (Ce.method e)).flatMap fun e => m.castExts c e alt

/-! ### The cast store (Table 11.4) -/

/-- A size rounded up to whole MiB. -/
def upMib (x : Nat) : Nat := ceilDiv x mib * mib

/-- Bytes of a record slot. -/
def Mod.recBytes (m : Mod) (c : Nat) : Nat := m.get F.CAST_SIZE_rec_kib c * 1024

/-- `parity_k`, 0 while parity is off. -/
def Mod.storeK (m : Mod) (c : Nat) : Nat := if m.on F.CAST_CFG_parity_en c then m.parK c else 0

/-- Rows of parity that this module keeps. -/
def Mod.storeRows (m : Mod) (c : Nat) : Nat :=
  let k := m.storeK c
  if k = 0 then 0 else ceilDiv (m.get F.CAST_SIZE_parity_ext c) k

/-- Offset in the store of area `i`, 0 to 5. -/
def Mod.storeArea (m : Mod) (c : Nat) (i : Nat) : Nat :=
  let r := m.recBytes c
  let sizes := [2 * r, 2 * r, 2 * m.storeK c * r, 2 * m.get F.CAST_SIZE_mirror_ext c * mib, 2 * m.storeRows c * mib]
  ((sizes.take i).map upMib).sum

/-- Bytes of the store: the last area, the parity tags, is not rounded up. -/
def Mod.storeBytes (m : Mod) (c : Nat) : Nat := m.storeArea c 5 + 16 * m.storeRows c

/-- Physical address of the store. -/
def Mod.storeBase (m : Mod) (c : Nat) : Nat :=
  Rgn.base (m.region c (m.get F.CAST_STORE_region c)) + m.get F.CAST_STORE_off c * mib

/-- Slot `s` of the records of module `sender`. -/
def Mod.recAt (m : Mod) (c sender s : Nat) : Nat :=
  let r := m.recBytes c
  let off := if sender = m.logical then m.storeArea c 0
    else if m.on F.CAST_CFG_mirror_en c && sender = m.mirrorPeer c true then m.storeArea c 1
    else m.storeArea c 2 + 2 * r * (m.parOthers c).idxOf sender
  m.storeBase c + off + s * r

/-- Slot `s` of the mirror sender's stream. -/
def Mod.mirAt (m : Mod) (c s : Nat) : Nat := m.storeBase c + m.storeArea c 3 + s * m.get F.CAST_SIZE_mirror_ext c * mib

/-- Slot `s` of parity row `row`, and its tag. -/
def Mod.rowAt (m : Mod) (c row s : Nat) : Nat := m.storeBase c + m.storeArea c 4 + (2 * row + s) * mib
def Mod.tagAt (m : Mod) (c row s : Nat) : Nat := m.storeBase c + m.storeArea c 5 + 16 * row + 8 * s
def Mod.rowTag (m : Mod) (c row s : Nat) : Nat := m.rdNat (m.tagAt c row s) 8
def Mod.setRowTag (m : Mod) (c row s g : Nat) : Mod := m.wrInt (m.tagAt c row s) (leBytes 8 g)

/-! ### Loading the list (R333-R336) -/

/-- The list's entries as they stand in memory. -/
def Mod.castRead (m : Mod) (c : Nat) : List W256 :=
  (List.range (m.get F.CAST_LIST_count c)).map fun k => BitVec.ofNat 256 (m.rdNat (m.castListAt c + 32 * k) 32)

/-- Method of an entry (R335). -/
def Mod.castMethod (m : Mod) (c : Nat) (e : CastEntry) : Nat :=
  let req := bits e.raw.toNat 17 2
  if req ≠ 0 then req
  else
    let z := ((castPlanes (m.castRgn c e) (m.castDesc c e) 0).map (·.2)).sum
    let mir := m.on F.CAST_CFG_mirror_en c
    if mir != m.on F.CAST_CFG_parity_en c then (if mir then 1 else 2)
    else if z ≤ m.get F.CAST_POLICY_small_mib * mib then 1
    else if Ce.dirtyFrac e ≤ m.get F.CAST_POLICY_dirty_max then 2
    else if m.get F.CAST_POLICY_big_gib * 2 ^ 30 ≤ z then 2
    else 1

/-- Whether an entry names a protected tensor whose planes all start on extents. -/
def Mod.castEntryOk (m : Mod) (c : Nat) (e : CastEntry) : Bool :=
  let d := m.castDesc c e
  let g := m.castRgn c e
  decide (Ce.desc e < m.get F.CTX_QUOTA_tdt_count c) && Ds.kind d == 1 && Ds.ab d
  && (castPlanes g d (Ds.addrA d) ++ castPlanes g d (Ds.addrB d)).all fun p => p.1 % mib == 0

/-- The entries with method, stream offsets and `cur_since` set. -/
def Mod.castPlace (m : Mod) (c since : Nat) : Nat → Nat → List CastEntry → List CastEntry
  | _, _, [] => []
  | mo, po, e :: t =>
    let k := m.castMethod c e
    let n := (m.castExts c e false).length
    let e' := Ce.put (Ce.put (Ce.put (Ce.put (Ce.put e 19 2 k) 64 32 (if inStream 0 k then mo else 0)) 96 32
      (if inStream 1 k then po else 0)) 128 64 since) 255 1 0
    e' :: m.castPlace c since (if inStream 0 k then mo + n else mo) (if inStream 1 k then po + n else po) t

/-- Extents of the stream of a kind over placed entries. -/
def Mod.placedExts (m : Mod) (c kind : Nat) (l : List CastEntry) : Nat :=
  ((l.filter fun e => inStream kind (Ce.method e)).map fun e => (m.castExts c e false).length).sum

/-- Whether a range of a region has read and write rights. -/
def castRgnOk (g : W256) (off n : Nat) : Bool :=
  Rgn.valid g && Rgn.rd g && Rgn.wr g && !Rgn.hostwin g && decide (off + n ≤ Rgn.size g)

/-- The status of a load (R334), and the placed entries. -/
def Mod.castCheck (m : Mod) (c : Nat) (blank : Bool) : Status × List CastEntry :=
  let raw := (m.castRead c).map fun w => ({ raw := w } : CastEntry)
  let since := if blank then 2 ^ 64 - 1 else m.get F.STEP_COMMITTED_step c
  let l := m.castPlace c since 0 0 raw
  let mir := m.on F.CAST_CFG_mirror_en c
  let par := m.on F.CAST_CFG_parity_en c
  let ma := m.get F.CAST_CFG_mirror_axis c
  let pa := m.get F.CAST_CFG_parity_axis c
  if m.stepOpen c then (ST_STEP_OPEN, [])
  else if !castRgnOk (m.region c (m.get F.CAST_LIST_region c)) (m.get F.CAST_LIST_off c * 128) (32 * raw.length)
    || !raw.all (m.castEntryOk c)
    || (raw.map Ce.desc).dedup.length != raw.length
    || l.any (fun e => (inStream 0 (Ce.method e) && !mir) || (inStream 1 (Ce.method e) && !par))
    || (mir && par && ma == pa)
    || decide (m.get F.CAST_SIZE_mirror_ext c < m.placedExts c 0 l)
    || decide (m.get F.CAST_SIZE_parity_ext c < m.placedExts c 1 l)
    || !castRgnOk (m.region c (m.get F.CAST_STORE_region c)) (m.get F.CAST_STORE_off c * mib) (m.storeBytes c)
    || decide (m.recBytes c < 0x22180 + 40 * m.get F.CAL_STAT_CFG_count c + 32)
    || (mir && !(decide (1 ≤ m.get F.CAST_CFG_mirror_dist c) && decide (m.get F.CAST_CFG_mirror_dist c < m.extent ma)))
    || (par && m.extent pa % (m.parK c + 1) != 0) then (ST_CAST_CONFIG, [])
  else (ST_OK, l)

/-- Ends a cast command with a status. -/
def Mod.castCmdEnd (m : Mod) (c : Nat) (st : Status) : Mod :=
  (m.set F.CAST_CMD_busy c 0).set F.CAST_CMD_status c st

/-- CAST_LOAD. A command written while one is busy is ignored (R356). -/
def Mod.castLoad (m : Mod) (c : Nat) (blank : Bool) : Mod :=
  if m.on F.CAST_CMD_busy c then m.refuseCtx ST_BUSY Blk.CAST c
  else
    let (st, l) := m.castCheck c blank
    if st ≠ ST_OK then m.castCmdEnd c st
    else
      let m := (m.reach false .rd (m.castListAt c) (32 * l.length)).setCtx c { m.ctx c with castLoaded := true, castList := l }
      let m := ((List.range l.length).zip l).foldl (fun m e =>
        m.wrInt (m.castListAt c + 32 * e.1) (leBytes 32 e.2.raw.toNat)) m
      let m := m.set F.CAST_STAT_state c (if (m.ctx c).drain.isSome then 2 else 1)
      (m.set F.CAST_STAT_full_next c 1).castCmdEnd c ST_OK

/-! ### The step record (R345-R347) -/

/-- Owned group entries and their places, and owned stream entries. -/
def Mod.ownGroups (m : Mod) (c : Nat) : List Byte :=
  (List.range 256).flatMap fun i =>
    let g := m.group i
    leBytes 32 (if Gr.valid g && Gr.owner g == c then g.toNat else 0)
def Mod.ownStreams (m : Mod) (c : Nat) : List Byte :=
  (List.range 4096).flatMap fun i =>
    let s := Tab.get 0 m.streamsLatch i
    leBytes 32 (if St.valid s && St.owner s == c then s.toNat else 0)

/-- Tensors of the plans section (R346). -/
def Mod.planTensors (m : Mod) (c : Nat) : List Nat :=
  (List.range (min (m.get F.CAL_STAT_CFG_count c) (m.get F.CTX_QUOTA_tdt_count c))).filter fun j =>
    let d := m.desc (m.entryOf c j)
    Ds.kind d == 1 && Pl.statsEn (Ds.plan d)

/-- A plan entry (Table 11.7). -/
def Mod.planEntry (m : Mod) (c j : Nat) : List Byte :=
  let d := m.desc (m.entryOf c j)
  leBytes 4 j ++ leBytes 1 (Ds.fmt d) ++ leBytes 3 0 ++ leBytes 4 (Ds.scale d) ++ leBytes 4 (Ds.planScale d)
  ++ leBytes 8 (Ds.plan d) ++ m.rd (m.statAt c j + 0x80) 16

/-- The record of generation `g` for step `s` (Table 11.6). -/
def Mod.stepRecord (m : Mod) (c g s : Nat) : List Byte :=
  let js := m.planTensors c
  leBytes 4 0xCA575EC0 ++ leBytes 2 1 ++ leBytes 1 c ++ leBytes 1 0
  ++ leBytes 4 g ++ leBytes 4 (0x22180 + 40 * js.length + 32) ++ leBytes 8 s
  ++ leBytes 2 (m.get F.RTE_EPOCH_epoch) ++ leBytes 2 0 ++ leBytes 4 m.logical
  ++ leBytes 4 (m.get F.STEP_LOSS_mu c) ++ leBytes 4 (m.get F.STEP_LOSS_var c)
  ++ leBytes 2 (m.get F.STEP_LOSS_CNT_n c) ++ leBytes 6 0
  ++ leBytes 4 js.length ++ leBytes 0xCC 0
  ++ leBytes 32 (m.ctx c).token.toNat ++ leBytes 4 g ++ leBytes 4 0 ++ leBytes 8 s ++ leBytes 0x50 0
  ++ m.ownGroups c ++ m.ownStreams c ++ js.flatMap (m.planEntry c)
  ++ leBytes 4 g ++ leBytes 4 0 ++ leBytes 8 s ++ leBytes 16 0

/-! ### Slots of the receiver (R329, R341) -/

/-- The slot record of a stream and generation. -/
def Mod.castSlot (m : Mod) (c kind sender g : Nat) : Option CastSlot :=
  (m.ctx c).slots.find? fun s => s.kind == kind && s.sender == sender && s.gen.toNat == g

/-- Replaces the slot record of a stream and generation. -/
def Mod.putSlot (m : Mod) (c : Nat) (s : CastSlot) : Mod :=
  let x := m.ctx c
  m.setCtx c { x with slots := s :: x.slots.filter fun t =>
    !(t.kind == s.kind && t.sender == s.sender && (t.gen == s.gen
      || (if s.kind = 1 then decide (t.gen.toNat + 2 ≤ s.gen.toNat) else t.slot == s.slot))) }

/-- The first packet of a newer generation seals every landed slot of an older one (R329). -/
def Mod.sealOlder (m : Mod) (c g : Nat) : Mod :=
  let x := m.ctx c
  m.setCtx c { x with slots := x.slots.map fun s => if s.state = 1 && decide (s.gen.toNat < g) then { s with state := 2 } else s }

/-- The slot that data of generation `g` go into: the one that does not hold the newest landed or sealed generation. -/
def Mod.slotFor (m : Mod) (c kind sender g : Nat) : CastSlot × Mod :=
  match m.castSlot c kind sender g with
  | some s => (s, m)
  | none =>
    let held := (m.ctx c).slots.filter fun s => s.kind == kind && s.sender == sender && s.state != 0
    let newest := held.foldl (fun (a : Option CastSlot) s => match a with
      | some b => if b.gen.toNat < s.gen.toNat then some s else a
      | none => some s) none
    let s : CastSlot := { kind := kind, sender := sender, gen := BitVec.ofNat 32 g,
                          slot := match newest with | some b => 1 - b.slot | none => 0 }
    (s, (m.sealOlder c g).putSlot c s)

/-- A slot lands once everything announced for it is stored. -/
def CastSlot.land (s : CastSlot) : CastSlot :=
  if s.state = 0 && s.said == some s.stored then { s with state := 1 } else s

/-- Clears the receiver slots that hold generation `g`, and the tags of its parity rows. The slot of the module's own record is
no receiver slot: it stays. -/
def Mod.clearSlots (m : Mod) (c g : Nat) : Mod :=
  let x := m.ctx c
  let m := m.setCtx c { x with slots := x.slots.filter fun s => s.gen.toNat != g || (s.kind == 2 && s.sender == m.logical) }
  m.each (List.range (m.storeRows c)) fun m r =>
    m.each [0, 1] fun m s => if g ≠ 0 && m.rowTag c r s = g then m.setRowTag c r s 0 else m

/-- After a restore to generation `g` the numbers above it are counted again (R353), so what is held under them is given up:
their slots, and the tags of their parity rows. -/
def Mod.forgetAfter (m : Mod) (c g : Nat) : Mod :=
  let x := m.ctx c
  let m := m.setCtx c { x with slots := x.slots.filter fun s => decide (s.gen.toNat ≤ g) }
  m.each (List.range (m.storeRows c)) fun m r =>
    m.each [0, 1] fun m s => if g < m.rowTag c r s then m.setRowTag c r s 0 else m

/-- The slot of a parity row that takes generation `g`: the one tagged so, else the one with the smaller tag. -/
def Mod.rowTarget (m : Mod) (c row g : Nat) : Nat :=
  if m.rowTag c row 0 = g then 0 else if m.rowTag c row 1 = g then 1
  else if m.rowTag c row 0 ≤ m.rowTag c row 1 then 0 else 1

/-- Full mode begins for generation `g` (R341): the target slot of every row is zeroed and tagged, unless it has been. It begins
with the module's own part of `g`, or with the first whole extent of `g` to arrive. -/
def Mod.rowsFull (m : Mod) (c g : Nat) : Mod :=
  m.each (List.range (m.storeRows c)) fun m r =>
    let s := m.rowTarget c r g
    if m.rowTag c r s = g then m else (m.wrInt (m.rowAt c r s) (List.replicate mib 0)).setRowTag c r s g

/-! ### Sending (R337, R340, R344) -/

/-- `opaque` of a cast packet. -/
def castOpq (g kind off : Nat) : Nat := g % 2 ^ 32 + kind * 2 ^ 32 + off / 4096 * 2 ^ 34

/-- Bytes in pieces of at most 65,536, with their offsets. -/
def pieces (l : List Byte) : List (Nat × List Byte) :=
  (List.range (ceilDiv l.length 65536)).map fun j => (65536 * j, (l.drop (65536 * j)).take 65536)

/-- Adds to a count kept by receiver and kind. -/
def addSent (l : List (Nat × Nat × Nat)) (dst kind n : Nat) : List (Nat × Nat × Nat) :=
  if l.any (fun e => e.1 == dst && e.2.1 == kind) then
    l.map fun e => if e.1 = dst && e.2.1 = kind then (dst, kind, e.2.2 + n) else e
  else l ++ [(dst, kind, n)]

/-- The count of a receiver and kind. -/
def sentTo (l : List (Nat × Nat × Nat)) (dst kind : Nat) : Nat :=
  match l.find? (fun e => e.1 == dst && e.2.1 == kind) with | some e => e.2.2 | none => 0

/-- Sends stream bytes of generation `g` from stream offset `off` on; false once a route is missing. -/
def Mod.castSend (m : Mod) (c g dst ptype kind off : Nat) (l : List Byte) : Bool × Mod :=
  (pieces l).foldl (fun (a : Bool × Mod) p =>
    let (ok, m) := a.2.send (some c) 2 ptype dst (.bytes p.2) 0 (castOpq g kind (off + p.1))
    let x := m.ctx c
    let m := match x.drain with
      | some d => m.setCtx c { x with drain := some { d with sent := addSent d.sent dst kind p.2.length } }
      | none => m
    (a.1 && ok, m)) (true, m)

/-- One thing that a generation sends: receiver, packet type, kind, stream offset, source extents whose XOR it is (one, or
the two of a delta). -/
structure CastOut where
  dst : Nat
  ptype : Nat
  kind : Nat
  off : Nat
  src : List Nat
deriving DecidableEq, Repr

/-- XOR of two byte strings. -/
def xorBytes (a b : List Byte) : List Byte := (a.zip b).map fun p => p.1 ^^^ p.2

/-- The extents that a generation sends, full or in delta mode. -/
def Mod.castOuts (m : Mod) (c : Nat) (full : Bool) : List CastOut :=
  let mir := if m.on F.CAST_CFG_mirror_en c then
      let l := m.castStream c 0 false
      ((List.range l.length).zip l).map fun e =>
        ({ dst := m.mirrorPeer c false, ptype := 0x20, kind := 0, off := e.1 * mib, src := [e.2] } : CastOut)
    else []
  let par := if m.on F.CAST_CFG_parity_en c then
      let l := (m.castStream c 1 false).zip (m.castStream c 1 true)
      let k := max (m.parK c) 1
      ((List.range l.length).zip l).filterMap fun e =>
        let dst := m.parMember c (parHolder k (m.parSelf c) e.1)
        if full then some ({ dst := dst, ptype := 0x20, kind := 1, off := e.1 * mib, src := [e.2.1] } : CastOut)
        else if Tab.get false m.dirty (e.2.1 / mib) then
          some ({ dst := dst, ptype := 0x21, kind := 1, off := e.1 * mib, src := [e.2.1, e.2.2] } : CastOut)
        else none
    else []
  mir ++ par

/-- Bytes of an extent to send. -/
def Mod.castBytes (m : Mod) (o : CastOut) : List Byte :=
  match o.src with
  | [a] => m.rd a mib
  | [a, b] => xorBytes (m.rd a mib) (m.rd b mib)
  | _ => []

/-- The dirty fraction of every entry is updated from the marks of both buffers, an extent marked in either counting once, and
the marks are cleared (R342). -/
def Mod.castDirty (m : Mod) (c : Nat) : Mod :=
  let pairs (e : CastEntry) : List (Nat × Nat) := (m.castExts c e false).zip (m.castExts c e true)
  let set (a : Nat) : Bool := Tab.get false m.dirty (a / mib)
  let clear := (m.ctx c).castList.flatMap fun e => (pairs e).flatMap fun p => [p.1 / mib, p.2 / mib]
  let m := m.castMap c fun e =>
    let l := pairs e
    let h := ((l.filter fun p => set p.1 || set p.2).length :: e.hist).take 16
    Ce.put { e with hist := h } 32 8 (min 255 (256 * h.sum / max (h.length * l.length) 1))
  m.each clear fun m x => { m with dirty := Tab.set false m.dirty x false }

/-! ### A generation ends (R328, R331, R348) -/

/-- Source of the trace records of the casting engine. -/
def Mod.castSrc (m : Mod) (c : Nat) : Nat :=
  17 + (if m.on F.CAST_CFG_mirror_en c then m.get F.CAST_CFG_mirror_axis c else m.get F.CAST_CFG_parity_axis c) / 2

/-- Whether this module lies in `CAST_SPAN`. -/
def Mod.castSpanned (m : Mod) (c : Nat) : Bool :=
  let w := BitVec.ofNat 64 (m.regAt (R.CAST_SPAN.base + R.CAST_SPAN.stride * c) R.CAST_SPAN.reset)
  m.spanOk w && m.spanHas w m.logical

/-- `CAST_SPAN` of a context. -/
def Mod.castSpan (m : Mod) (c : Nat) : W64 :=
  BitVec.ofNat 64 (m.regAt (R.CAST_SPAN.base + R.CAST_SPAN.stride * c) R.CAST_SPAN.reset)

/-- Contributes to the completion reduction of generation `g`, once; outside its own span the module's part is the whole. -/
def Mod.castContribute (m : Mod) (c : Nat) (g : W32) (done : Bool) : Mod :=
  match (m.ctx c).castRed with
  | some r => if r.tag = g.toNat && r.axis < 4 then m else m.spanBegin c 2 (m.castSpan c) g.toNat (.cast g done)
  | none =>
    if m.castSpanned c then m.spanBegin c 2 (m.castSpan c) g.toNat (.cast g done)
    else m.setSpanRed c 2 (some { span := m.castSpan c, tag := g.toNat, axis := 4, value := .cast g done })

/-- Drops early values of the completion reduction of generation `g`. -/
def Mod.castForget (m : Mod) (c g : Nat) : Mod :=
  { m with early := m.early.filter fun p => match p.payload with
      | .span _ _ v => !(p.hdr.ctx.toNat == c && valKind v == 2 && Pk.tag p == g)
      | _ => true }

/-- State that `CAST_STAT` returns to when no generation drains. -/
def Mod.castIdle (m : Mod) (c : Nat) : Mod :=
  let x := m.ctx c
  let m := m.setCtx c { x with drain := none }
  (m.set F.CAST_GEN_gen_drain c 0).set F.CAST_STAT_state c (if x.restore.isSome then 3 else if x.castLoaded then 1 else 0)

/-- Abandons the generation in drain with a status (R331). -/
def Mod.genAbandon (m : Mod) (c : Nat) (st : Status) : Mod :=
  match (m.ctx c).drain with
  | none => m
  | some d =>
    let m := m.castContribute c d.gen false
    let m := (m.castIdle c).clearSlots c d.gen.toNat
    let m := (m.set F.CAST_STAT_full_next c 1).set F.CAST_STAT_exposed c 1
    let m := (m.bump F.CAST_GENS_abandoned c 1).set F.CAST_STAT_last_status c st
    let m := m.log { st := ST_CAST_ABANDONED, cls := .event, block := Blk.CAST, ctx := c, d0 := d.gen.toNat }
    m.trace (m.castSrc c) 0x08 c 0 0xFFFF (2 + d.gen.toNat * 2 ^ 32)

/-- λ of R348 as a fraction of failures per hour: numerator, denominator. -/
def Mod.castRate (m : Mod) (c : Nat) : Nat × Nat :=
  let n := ((List.range 4).map fun a => Sp.len (m.castSpan c) a).foldl (· * ·) 1
  let w := min m.time (720 * 3600 * 10 ^ 9)
  let l := (m.losses.filter fun t => m.time ≤ t + 720 * 3600 * 10 ^ 9).length
  let loc : Nat × Nat := if l = 0 then (0, 1) else (n * l * 3600 * 10 ^ 9, max w 1)
  let fleet : Nat × Nat := match num32 (m.get F.CAST_RATE_fleet_fph) with
    | .fin false x e => (x * 2 ^ e.toNat, 2 ^ (-e).toNat)
    | _ => (0, 1)
  if loc.1 * fleet.2 ≤ fleet.1 * loc.2 then fleet else loc

/-- The recommended interval (R348). With fewer than two passing flips the mean time between flips has no value, and so
has the result. -/
def Mod.castRecommend (m : Mod) (c : Nat) : Mod :=
  let x := m.ctx c
  let (p, q) := m.castRate c
  if p = 0 then m.set F.CAST_STAT_k_rec c 65535
  else
    let f := x.flips.take 17
    let span := f.headD 0 - f.getLastD 0
    if f.length < 2 || span = 0 then
      let (k, m) := m.draw
      m.set F.CAST_STAT_k_rec c (1 + Config.freeNat k % 65535)
    else
      -- (T / t)^2 = 2 C M / t^2 with C = sum / len, M = 3600 q / p and t = span / n, times in ns; halves round up
      let n := f.length - 1
      let costs := x.costs.take 16
      let s := Nat.sqrt (8 * costs.sum * 3600 * 10 ^ 9 * q * (n * n) / (max costs.length 1 * p * (span * span)))
      m.set F.CAST_STAT_k_rec c (min (max ((s + 1) / 2) 1) 65535)

/-- The flip wait and the holds of context `c` have lasted to now: their time goes to the counters and to the cost of the
generation that they wait for (R311, R330, R348). -/
def Mod.waitsCount (m : Mod) (c : Nat) : Mod :=
  let x := m.ctx c
  let m := match x.flipSince with
    | some t =>
      let w := m.time - t
      (m.count F.STEP_WAIT_NS_ns c w).setCtx c { x with flipSince := some m.time, cost := x.cost + w }
    | none => m
  m.each (ctxQueues c) fun m i => match (m.queue i).op with
    | some o =>
      if o.co.phase = 1 then
        let w := m.time - o.co.since
        let m := m.set F.CAST_COST_wait_ns c (m.get F.CAST_COST_wait_ns c + w)
        let m := m.setCtx c { m.ctx c with cost := (m.ctx c).cost + w }
        m.modColl (.q i) fun k => { k with since := m.time }
      else m
    | none => m

/-- Generation `g` is job-complete (R328): the waits on it end, and their time is part of its cost. -/
def Mod.genComplete (m : Mod) (c : Nat) (d : Drain) : Mod :=
  let m := m.waitsCount c
  let x := m.ctx c
  let m := m.setCtx c { x with slots := x.slots.map (fun s => if s.gen = d.gen && s.state = 1 then { s with state := 2 } else s),
                               costs := (x.cost :: x.costs).take 16, cost := 0 }
  let m := (m.castIdle c).set F.CAST_GEN_gen_job c d.gen.toNat
  let m := (m.set F.CAST_GEN_STEP_step c d.step.toNat).bump F.CAST_GENS_complete c 1
  let m := (if d.full then m.set F.CAST_STAT_full_next c 0 else m).set F.CAST_STAT_exposed c 0
  (m.trace (m.castSrc c) 0x08 c 0 0xFFFF (1 + d.gen.toNat * 2 ^ 32)).castRecommend c

/-- The result of the completion reduction is taken. -/
def Mod.castResolve (m : Mod) (c : Nat) : Mod :=
  match m.spanResult c 2 with
  | some (.cast g ok) =>
    let m := (m.setSpanRed c 2 none).castForget c g.toNat
    match (m.ctx c).drain with
    | some d => if d.gen ≠ g then m else if ok then m.genComplete c d else m.genAbandon c ST_CAST_ABANDONED
    | none => m
  | _ => m

/-! ### Local completion (R328) -/

/-- Whether the module's part of the generation in drain is locally complete. -/
def Mod.castLocal (m : Mod) (c : Nat) (d : Drain) : Bool :=
  d.sent.all (fun e => sentTo d.acked e.1 e.2.1 == e.2.2)
  && (let landed (s kind : Nat) : Bool := match m.castSlot c kind s d.gen.toNat with | some x => x.state != 0 | none => false
      (!m.on F.CAST_CFG_mirror_en c || (landed (m.mirrorPeer c true) 0 && landed (m.mirrorPeer c true) 2))
      && (m.parOthers c).all fun s => landed s 1 && landed s 2)

/-- The module contributes as soon as its part is locally complete. -/
def Mod.castTry (m : Mod) (c : Nat) : Mod :=
  match (m.ctx c).drain with
  | some d =>
    if d.localDone || !m.castLocal c d then m
    else
      let m := m.setCtx c { m.ctx c with drain := some { d with localDone := true } }
      m.castContribute c d.gen true
  | none => m

/-! ### A generation begins (R327) -/

/-- `k_int` takes effect at a passing flip; a change between 1 and a larger value calls for a full generation (R349). -/
def Mod.kTake (m : Mod) (c : Nat) : Mod :=
  let k := m.get F.CAST_CFG_k_int c
  let old := (m.ctx c).kNow
  let m := if (old == 1) != (k == 1) then m.set F.CAST_STAT_full_next c 1 else m
  m.setCtx c { m.ctx c with kNow := k }

/-- A passing flip of step `s` hands the step to the casting engines. -/
def Mod.genBegin (m : Mod) (c s : Nat) : Mod :=
  let k := (m.ctx c).kNow
  if !m.on F.CAST_CFG_enable c || !(m.ctx c).castLoaded || s % max k 1 ≠ 0 then m
  else
    let g := (m.get F.CAST_GEN_gen_job c + 1) % 2 ^ 32
    let full := !(k == 1 && !m.on F.CAST_STAT_full_next c)
    let m := m.setCtx c { m.ctx c with drain := some { gen := BitVec.ofNat 32 g, step := BitVec.ofNat 64 s, full := full, began := m.time } }
    let m := (m.set F.CAST_GEN_gen_drain c g).set F.CAST_STAT_state c 2
    let m := m.trace (m.castSrc c) 0x08 c 0 0xFFFF (g * 2 ^ 32)
    let m := if full && m.on F.CAST_CFG_parity_en c then m.rowsFull c g else m
    let outs := m.castOuts c full
    if outs.any fun o => o.src.any fun a => m.poisonedIn a mib then m.genAbandon c ST_MEM_UNCORR
    else
      let (ok, m) := outs.foldl (fun (a : Bool × Mod) o =>
        let m := a.2.each o.src fun m x => m.reach false .rd x mib
        let (s, m) := m.castSend c g o.dst o.ptype o.kind o.off (a.2.castBytes o)
        (a.1 && s, m)) (true, m)
      let m := m.castDirty c
      let r := m.stepRecord c g s
      let (own, m) := m.slotFor c 2 m.logical g
      let m := (m.wrInt (m.recAt c m.logical own.slot) r).putSlot c { own with stored := r.length, said := some r.length, state := 1 }
      let (ok, m) := (m.castPeers c false).foldl (fun (a : Bool × Mod) dst =>
        let (s, m) := a.2.castSend c g dst 0x22 2 0 r
        let sent := match (m.ctx c).drain with | some d => d.sent | none => []
        let (t, m) := m.send (some c) 2 0x23 dst (.castDone (sentTo sent dst 0) (sentTo sent dst 1) (sentTo sent dst 2)) 0 (castOpq g 0 0)
        (a.1 && s && t, m)) (ok, m)
      if ok then m.castTry c else m.genAbandon c ST_NO_ROUTE

/-! ### Unloading (R331) -/

/-- CAST_UNLOAD. -/
def Mod.castUnload (m : Mod) (c : Nat) : Mod :=
  if m.on F.CAST_CMD_busy c then m.refuseCtx ST_BUSY Blk.CAST c
  else
    let m := m.genAbandon c ST_CAST_ABANDONED
    let m := m.setCtx c { m.ctx c with castLoaded := false, castList := [] }
    (m.set F.CAST_STAT_state c 0).castCmdEnd c ST_OK

/-- CAST_ABANDON_TIMEOUT. -/
def Mod.castTimeout (m : Mod) (c : Nat) : Mod :=
  if m.get F.CAST_CFG_abandon_ms c = 0 then m else m.genAbandon c ST_CAST_ABANDONED

end Sys2Proof.Machine
end

