-- ==== Sys2Proof/Machine/Steps.lean ====
section
/-! DEFINITION. The step commit protocol: step-control operations (R190-R192), the loss detector (R316), the aggregator's
boundary (R117-R122), the update phase (R296), the verdict and the vote (R315-R318), flips and closes (R307-R324). -/

namespace Sys2Proof.Machine

/-! ### Checks at issue (R190, R191, R296, R297, R314) -/

/-- The tensor in slot 0, when present, has a format and (some) count. -/
def tokenOk (caps : List Cap) (f : Nat) (n : Option Nat) : Status :=
  match capOf caps 0 with
  | none => ST_OK
  | some x =>
    if x.fmt ≠ f then ST_BAD_FORMAT
    else if n.any (· != x.count) then ST_BAD_SHAPE
    else if !x.scaleOk then ST_BAD_SCALE
    else ST_OK

/-- The context that issues: its captured tensors lie in the queue's context; the queue gives it. -/
def sbCheck (i : Nat) (m : Mod) (r : W1024) (caps : List Cap) : Status :=
  let c := qCtx i
  let st := tokenOk caps INT8 (some 32)
  if st ≠ ST_OK then st
  else if m.get F.STEP_STAT_state c = 5 then ST_STEP_HALTED
  else if m.stepOpen c then ST_STEP_OPEN
  else if Rc.p r 0 ≠ (m.get F.STEP_COMMITTED_step c + 1) % 2 ^ 64 then ST_STEP_ORDER
  else ST_OK

/-- Operations of context `c` in flight with one of the opcodes. -/
def Mod.opsRunning (m : Mod) (c : Nat) (codes : List Nat) : Bool :=
  (ctxQueues c).any fun i => match (m.queue i).op with
    | some o => codes.contains (Rc.opcode o.rcd)
    | none => false

/-- `UPD_SPAN` of a context. -/
def Mod.updSpan (m : Mod) (c : Nat) : W64 :=
  BitVec.ofNat 64 (m.regAt (R.UPD_SPAN.base + R.UPD_SPAN.stride * c) R.UPD_SPAN.reset)

/-- Whether a reduction over span `w` would send packets and the module has no logical address to send them from (R262). -/
def Mod.spanMute (m : Mod) (w : W64) : Bool :=
  m.spanOk w && !m.hasAddress && (List.range 4).any fun a => 1 < Sp.len w a

def seCheck (i : Nat) (m : Mod) (_r : W1024) (caps : List Cap) : Status :=
  let c := qCtx i
  let st := tokenOk caps FP32 none
  if st ≠ ST_OK then st
  else if !m.stepOpen c then ST_NO_STEP
  else if m.get F.STEP_STAT_state c ≠ 1 || m.opsRunning c [0x55] then ST_STEP_ORDER
  else if m.on F.UPD_CTL_norm_en c && m.spanMute (m.updSpan c) then ST_NO_ROUTE
  else ST_OK

def voCheck (i : Nat) (m : Mod) (r : W1024) (_caps : List Cap) : Status :=
  let c := qCtx i
  let w := BitVec.ofNat 64 (Rc.p r 0)
  if m.spanMute w then ST_NO_ROUTE
  else if !m.spanOk w || !m.spanHas w m.logical then ST_BAD_ATTR
  else if !m.stepOpen c then ST_NO_STEP
  else if m.get F.STEP_STAT_state c ≠ 2 then ST_STEP_ORDER
  else ST_OK

def flCheck (i : Nat) (m : Mod) (_r : W1024) (_caps : List Cap) : Status :=
  let c := qCtx i
  if !m.stepOpen c then ST_NO_STEP
  else if m.get F.STEP_STAT_state c ≠ 4 then ST_STEP_ORDER
  else ST_OK

/-! ### Beginning (Table 10.3, R190, R303) -/

/-- Latches the pending group and stream entries of a context (R190, R303). -/
def Mod.latchTables (m : Mod) (c : Nat) : Mod :=
  let x := m.ctx c
  let m := m.each x.wroteGroups fun m i =>
    let g : W256 := BitVec.ofNat 256 (setBits (Tab.get 0 m.groupsPend i).toNat 202 1 0)
    { m with groupsPend := Tab.set 0 m.groupsPend i g, groupsLatch := Tab.set 0 m.groupsLatch i g }
  let m := m.each x.wroteStreams fun m i =>
    { m with streamsLatch := Tab.set 0 m.streamsLatch i (Tab.get 0 m.streams i) }
  m.setCtx c { m.ctx c with wroteGroups := [], wroteStreams := [] }

/-- What a context keeps across steps; the rest of its step state starts afresh. -/
def Ctx.freshStep (x : Ctx) : Ctx :=
  { x with pfMarks := [], pfBad := [], touched := [], layersSeen := [], layersOver := [], pending := [], voided := [],
           nfEngines := 0, normAcc := 0, normNf := false, layers := [], named := [], prot := [], norm := none,
           updErr := false, redone := 0, token := 0, objective := none, spike := false, lossDone := false, aggDone := false,
           updDone := false, pendLoss := none, verdict := none, hostVeto := false, abandonOther := false, vote := none,
           voteQ := none, normRed := none, writeCount := [], restored := none, flipQ := none, flipSince := none }

/-- Opens step `s` of context `c`. What operations outside a step have merged stays in the records, while the touched list and
`MQ_NF_TOTAL` start afresh (DESIGN CHOICE, log entry 26). -/
def Mod.stepOpenNow (m : Mod) (c s layers : Nat) (token : W256) : Mod :=
  let m := m.latchTables c
  let m := m.setCtx c { (m.ctx c).freshStep with token := token }
  let m := (m.setRegAt (R.MQ_STEP_STAT.base + R.MQ_STEP_STAT.stride * c) 0 0).set F.MQ_STEP_STAT_layers_declared c layers
  let m := (m.set F.MQ_NF_TOTAL_nonfinite_total c 0).set F.STEP_CUR_step c s
  let m := (m.set F.STEP_STAT_state c 1).set F.STEP_STAT_abandoned c 0
  let m := (m.set F.STEP_STAT_cond c 0).set F.STEP_STAT_cond_late c 0
  let m := ((m.set F.STEP_STAT_verdict_fixed c 0).set F.STEP_STAT_close_pending c 0).set F.STEP_STAT_flip_wait c 0
  (m.set F.UPD_NORM_phase c 0).stepTrace c 0

/-- Marks the operation of queue `i` as having met poison. -/
def Mod.opPoison (m : Mod) (i : Nat) : Mod := m.modOp i fun o => { o with status := orStatus o.status ST_MEM_UNCORR }

/-- Issues a `STEP_BEGIN`; without d0 the token is 0, and a poisoned token is undefined. -/
def Mod.issueStepBegin (m : Mod) (i : Nat) : Mod :=
  m.issue i 0x60 (sbCheck i) fun m r caps =>
    let open_ (m : Mod) (t : List Byte) : Mod :=
      m.stepOpenNow (qCtx i) (Rc.p r 0) (Rc.pf r 1 0 16) (BitVec.ofNat 256 (leNat t))
    match capOf caps 0 with
    | none => open_ m []
    | some x =>
      let m := m.readCap x
      if m.poisonedCap x then
        let (l, m) := m.drawBytes 32
        (open_ m l).opPoison i
      else open_ m (m.rd x.base 32)

/-! ### The loss check (R316) -/

/-- The loss check on an objective value `l`. -/
def Mod.lossCheck (m : Mod) (c : Nat) (l : Num) : Mod :=
  let mu := num32 (m.get F.STEP_LOSS_mu c)
  let v := num32 (m.get F.STEP_LOSS_var c)
  let n := m.get F.STEP_LOSS_CNT_n c
  let a : Num := .fin false 1 (-(m.get F.STEP_CFG_ema_log2 c : Nat))
  let d := l.addR mu.neg
  let test := decide (m.get F.STEP_CFG_warmup c ≤ n) && Num.lt false .zero v
  let s := v.sqrt
  let spike := l.isFin && n != 0 && test && Num.lt false ((num32 (m.get F.STEP_CFG_z_max c)).mulR s) d
  let z := if l.isFin && n != 0 && test then d.div s else .zero
  let pend := if !l.isFin then none
    else if n = 0 then some (patOf l, 0, 1)
    else some (patOf (mu.addR (a.mulR d)),
      patOf ((Num.one.addR a.neg).mulR (v.addR (a.mulR (d.mulR d)))), min (n + 1) 65535)
  let x := m.ctx c
  let m := m.setCtx c { x with objective := some (patOf l), spike := spike, pendLoss := pend, lossDone := true }
  (m.set F.STEP_LAST_l c (patOf l)).set F.STEP_LAST_z c (patOf z)

/-- The loss check of a `STEP_END`: the mean of the objective, undefined when it holds poison. -/
def Mod.lossOf (m : Mod) (i : Nat) (caps : List Cap) : Mod :=
  let c := qCtx i
  match capOf caps 0 with
  | none => m.setCtx c { m.ctx c with lossDone := true }
  | some x =>
    if m.poisonedCap x then
      let (k, m) := m.draw
      (m.lossCheck c (num32 (Config.freeNat k % 2 ^ 32))).opPoison i
    else m.lossCheck c (reduceFn 2 ((List.range x.count).map (m.real x)))

/-! ### The aggregator's boundary (R110, R117, R118) -/

/-- Bins that predict an underflow in a lower rung (Table 4.7). -/
def underBins (f : Nat) : Nat := if f = E2M1 then 27 else if f = E4M3 then 13 else 1

/-- The estimate of R110. -/
def Mod.estimate (m : Mod) (c j pol : Nat) : Nat :=
  let est := m.statGet c j 0x80 4
  let amax := m.statGet c j 0 4
  if est = 0 then amax
  else
    let w := m.get F.MQ_POLICY_decay_log2 pol
    ((num32 amax).max ((num32 est).mulR (.fin false (2 ^ w - 1) (-(w : Nat))))).pat32

/-- Running state: estimate, clean steps, failures at the ceiling, boost, promotions, demotions (Table 4.5). -/
structure RunState where
  est : Nat
  clean : Nat
  cf : Nat
  boost : Nat
  prom : Nat
  dem : Nat
deriving DecidableEq, Repr

/-- The committed (0x80) or pending (0x90) running state of a record. -/
def Mod.runState (m : Mod) (c j off : Nat) : RunState :=
  { est := m.statGet c j off 4, clean := m.statGet c j (off + 4) 2, cf := m.statGet c j (off + 6) 1,
    boost := m.statGet c j (off + 7) 1, prom := m.statGet c j (off + 8) 4, dem := m.statGet c j (off + 12) 4 }

/-- Writes a running state. -/
def Mod.setRunState (m : Mod) (c j off : Nat) (s : RunState) : Mod :=
  let m := m.statSet c j off 8 (s.est + s.clean * 2 ^ 32 + s.cf * 2 ^ 48 + s.boost * 2 ^ 56)
  m.statSet c j (off + 8) 8 (s.prom + s.dem * 2 ^ 32)

/-- The pending format, state and events of a steered tensor (R117): format, state, event (0 none, 1 promote, 2 demote),
recipe flag. Two points are the model's (DESIGN CHOICE, log entry 26): `ceil_fails`, an 8-bit field, saturates at 255, and a
`recipe_fmt` that is not a rung of the plan's ladder never raises the flag. -/
def Mod.steerNext (m : Mod) (c j : Nat) (p : Nat) (storm : Bool) : Nat × RunState × Nat × Bool :=
  let pol := Pl.policy p
  let old := m.runState c j 0x80
  let est := m.estimate c j pol
  let fmt := Pl.reqFmt p
  let mid := Pl.midFmt p
  let r := rung mid fmt
  let nz := m.statGet c j 16 8
  let fail := decide (2 ^ m.get F.MQ_POLICY_sat_tol pol - 1 < m.statGet c j 64 8 + m.statGet c j 48 8)
    || (m.get F.MQ_POLICY_uf_promote pol != 0
        && decide (m.get F.MQ_POLICY_uf_promote pol * nz < m.statGet c j 32 8 * 65536))
  let s := { old with est := est }
  if storm then (fmt, { s with boost := 1 }, 0, false)
  else if fail then
    if r < rung mid (Pl.ceilFmt p) then
      let f := rungFmt mid (r + 1)
      let rf := m.get F.MQ_POLICY_recipe_fmt pol
      (f, { s with boost := 0, clean := 0, cf := 0, prom := satAdd 32 s.prom 1 }, 1,
        rf != 0xF && rung mid rf != 0 && decide (rung mid rf ≤ r + 1))
    else
      let cf := satAdd 8 s.cf 1
      let cl := m.get F.MQ_POLICY_ceil_fail_steps pol
      let hit := cl != 0 && decide (cl ≤ cf)
      (fmt, { s with boost := 0, clean := 0, cf := if hit then 0 else cf }, 0, hit)
  else
    let clean := if old.est ≠ 0 && !Num.lt false (num32 old.est) (num32 (m.statGet c j 0 4)) then min (old.clean + 1) 65535 else 0
    let dn := m.get F.MQ_POLICY_demote_steps pol
    let low := rungFmt mid (r - 1)
    let u := ((List.range (underBins low)).map fun k => m.statGet c j (0x100 + 8 * k) 8).sum
    if dn ≠ 0 && decide (dn ≤ clean) && decide (rung mid (Pl.floorFmt p) < r)
        && decide (u * 65536 ≤ m.get F.MQ_POLICY_uf_demote pol * nz) then
      (low, { s with boost := 0, clean := 0, cf := 0, dem := satAdd 32 s.dem 1 }, 2, false)
    else (fmt, { s with boost := 0, clean := clean, cf := 0 }, 0, false)

/-- The boundary computation of one touched tensor: its pending state, and for a steered tensor its pending plan. -/
def Mod.steerOne (m : Mod) (c j : Nat) : Mod :=
  let d := m.desc (m.entryOf c j)
  let p := Ds.plan d
  let pend (m : Mod) (x : SteerPend) : Mod := m.setCtx c { m.ctx c with pending := (m.ctx c).pending ++ [x] }
  let x : SteerPend := { tensor := j, plan := none, base := Ds.planScale d, event := 0, clamped := false, recipe := false }
  if !Pl.statsEn p then m
  else if !Pl.steerEn p || !m.on F.MQ_CTL_steer_en c then
    pend (m.setRunState c j 0x90 { m.runState c j 0x80 with est := m.estimate c j (Pl.policy p) }) x
  else
    let (f, s, ev, recipe) := m.steerNext c j p (m.on F.MQ_STEP_STAT_storm c)
    let (sc, cl) := if s.est = 0 then (Ds.planScale d, false) else planScaleOf s.est f (Pl.headroom p + s.boost)
    pend (m.setRunState c j 0x90 s) { x with plan := some (f, sc), event := ev, clamped := cl, recipe := recipe }

/-- The aggregator's boundary at step end (R117, R125). -/
def Mod.boundary (m : Mod) (c : Nat) : Mod :=
  let m := if m.get F.MQ_STEP_STAT_layers_declared c = 0 then m.stormTest c (m.get F.MQ_STEP_STAT_layers_seen c) 0xFFFF else m
  let m := m.setCtx c { m.ctx c with voided := [], pending := [] }
  let m := m.each (m.ctx c).touched fun m j => m.steerOne c j
  (m.set F.MQ_STEP_STAT_done c 1).setCtx c { m.ctx c with aggDone := true }

/-- Raises a recipe flag (R119). -/
def Mod.recipeFlag (m : Mod) (c : Nat) : Mod :=
  if m.on F.MQ_FLAGS_recipe_flag_en c then m.ctxFlagAdd c (m.get F.MQ_FLAGS_recipe_flag c) 1 Blk.MQ else m

/-- Applies the pending plan of a steered tensor. A correction made after the boundary (R113) is kept where the format stays:
the scale is then the larger of the two (Table 4.8; DEDUCED, log entry 26). -/
def Mod.planApply (m : Mod) (c : Nat) (x : SteerPend) (f sc : Nat) : Mod :=
  let ent := m.entryOf c x.tensor
  let d := m.desc ent
  let p := Ds.plan d
  let sc := if Ds.planScale d ≠ x.base && Pl.reqFmt p = f then max sc (Ds.planScale d) else sc
  let m := if Pl.reqFmt p = f && Ds.planScale d = sc then m else m.setDesc ent (Ds.setPlan d (setBits p 0 4 f) sc)
  let ev : MqEv := { code := 0, tensor := x.tensor, layer := 0xFFFF, before := Pl.reqFmt p, after := f, scale := sc,
                     ver := Pl.ver (Ds.plan (m.desc ent)) }
  let m := if x.clamped then m.mqEvent c { ev with code := 0x04 } else m
  let m := if x.event = 0 then m else m.mqEvent c { ev with code := x.event }
  if x.recipe then (m.recipeFlag c).mqEvent c { ev with code := if x.event = 1 then 0x09 else 0x08 } else m

/-- Applies one pending result (R121, R122): the running state, and the plan unless a maintenance write has voided it. -/
def Mod.steerApply (m : Mod) (c : Nat) (x : SteerPend) : Mod :=
  let new := m.runState c x.tensor 0x90
  let old := m.runState c x.tensor 0x80
  if (m.ctx c).voided.contains x.tensor then
    m.setRunState c x.tensor 0x80 { old with est := new.est, boost := new.boost, clean := 0, cf := 0 }
  else
    let m := m.setRunState c x.tensor 0x80 new
    match x.plan with
    | some (f, sc) => m.planApply c x f sc
    | none => m

/-- The outcome is known: pending results are applied or dropped, and the accumulators cleared (Table 4.8). -/
def Mod.steerResolve (m : Mod) (c : Nat) (pass : Bool) : Mod :=
  let x := m.ctx c
  let m := if pass || m.on F.MQ_CTL_keep_on_veto c || m.on F.MQ_STEP_STAT_storm c then
      x.pending.foldl (fun m e => m.steerApply c e) m
    else m
  let m := m.each x.touched fun m j =>
    let m := m.each (List.range 9) fun m k => m.statSet c j (8 * k) 8 0
    m.each (List.range 32) fun m k => m.statSet c j (0x100 + 8 * k) 8 0
  m.setCtx c { m.ctx c with touched := [], pending := [], voided := [] }

/-! ### The update phase (R296) -/

/-- Clip factor of a group for a norm: 1, or the quotient of R296 step 2. -/
def clipOf (g : W256) (norm : Num) (nf : Bool) : Num :=
  if nf || !norm.isFin || !Num.lt false (num32 (Gr.clip g)) norm then .one else (num32 (Gr.clip g)).div norm

/-- The norm is known: clip factors are formed and the passes of every layer begin. -/
def Mod.passesBegin (m : Mod) (c : Nat) (norm : Num) (valid : Bool) : Mod :=
  let nf := (m.ctx c).normNf
  let m := m.setCtx c { m.ctx c with norm := some (patOf norm, valid) }
  let clipped := m.groupsLatch.any fun g => Gr.valid g.2 && Gr.owner g.2 == c && clipOf g.2 norm nf != .one
  -- row 3 of Table 9.6 is reached only where there is a pass to make
  let some_ := clipped || (m.ctx c).layers.any fun o => Gr.exact (m.group (ruGroup o.caps)) || inPlaceStats o
  let m := (if some_ then m.set F.UPD_NORM_phase c 2 else m).set F.UPD_NORM_clipped c (b2n clipped)
  m.each (List.range (m.ctx c).layers.length) fun m k =>
    match (m.ctx c).layers[k]? with
    | none => m
    | some o =>
      let g := m.group (ruGroup o.caps)
      let clip := clipOf g norm nf
      match passOf (Gr.exact g) o clip with
      | none => m
      | some p =>
        let m := if p = 1 && !Gr.exact g then m.setCtx c { m.ctx c with redone := (m.ctx c).redone + 1 } else m
        m.passStart c k p (patOf clip)

/-- The update phase begins. Outside its own span a module has no norm to wait for. -/
def Mod.updBegin (m : Mod) (c : Nat) : Mod :=
  let x := m.ctx c
  if !m.on F.UPD_CTL_norm_en c then m.passesBegin c .zero false
  else
    let w := m.updSpan c
    let m := m.set F.UPD_NORM_phase c 1
    if m.spanOk w && m.spanHas w m.logical then m.spanBegin c 1 w (m.get F.STEP_CUR_step c % 2 ^ 32) (.norm x.normAcc x.normNf)
    else m.setCtx c { x with updErr := true }

/-- The norm reduction has finished. -/
def Mod.normTake (m : Mod) (c : Nat) : Mod :=
  match m.spanResult c 1 with
  | some (.norm acc nf) =>
    let n := ((Num.fin false acc (-149)).r32).sqrt
    let m := m.setSpanRed c 1 none
    let m := m.setCtx c { m.ctx c with normNf := (m.ctx c).normNf || nf }
    m.passesBegin c n true
  | _ => m

/-- Whether every pass and exchange of the update phase has ended. -/
def Mod.updOver (m : Mod) (c : Nat) : Bool :=
  let x := m.ctx c
  if x.norm.isSome then x.layers.all fun o => o.co.phase == 4 else x.updErr && x.normRed.isNone

/-- UPDATE_PHASE_DONE. -/
def Mod.updPhaseDone (m : Mod) (c : Nat) : Mod :=
  let x := m.ctx c
  if m.stepOpen c && m.get F.STEP_STAT_state c != 1 && !x.updDone && m.updOver c then
    let n := x.norm.getD (0, false)
    let m := (m.set F.UPD_NORM_norm c n.1).set F.UPD_NORM_valid c (b2n n.2)
    let m := m.set F.UPD_NORM_nonfinite c (b2n (x.normNf || !(num32 n.1).isFin))
    let m := m.set F.UPD_NORM_redo_layers c (min x.redone 65535)
    let m := if x.updErr then m else m.set F.UPD_NORM_phase c 3
    m.setCtx c { m.ctx c with updDone := true }
  else m

/-- Issues a `STEP_END`. -/
def Mod.issueStepEnd (m : Mod) (i : Nat) : Mod :=
  m.issue i 0x61 (seCheck i) fun m _ caps =>
    let c := qCtx i
    let m := (m.set F.STEP_STAT_state c 2).stepTrace c 1
    ((m.lossOf i caps).boundary c).updBegin c

/-! ### The verdict and the vote (R314-R318) -/

/-- Conditions of Table 10.4 that hold, bit by bit. -/
def Mod.condHolds (m : Mod) (c : Nat) : List Bool :=
  let x := m.ctx c
  [x.spike,
   decide (m.get F.STEP_NF_LIMIT_nf_limit c < m.get F.MQ_NF_TOTAL_nonfinite_total c)
     || x.objective.any (fun l => !(num32 l).isFin),
   m.on F.MQ_STEP_STAT_storm c, x.updErr, x.hostVeto, x.abandonOther]

/-- Policy of each condition: 0 `FLAG`, 1 `VETO`, 2 `VETO_HALT`. -/
def Mod.condPolicy (m : Mod) (c : Nat) : List Nat :=
  [m.get F.STEP_CFG_spike_pol c, m.get F.STEP_CFG_nf_pol c, m.get F.STEP_CFG_storm_pol c, m.get F.STEP_CFG_clip_pol c, 1, 1]

/-- Joins the vote of the operation of queue `i` once the verdict is fixed (R318). -/
def Mod.voteGo (m : Mod) (c : Nat) : Mod :=
  match (m.ctx c).voteQ, (m.ctx c).verdict, (m.ctx c).vote with
  | some i, some (commit, halt), none =>
    match (m.queue i).op with
    | some o => m.spanBegin c 0 (BitVec.ofNat 64 (Rc.p o.rcd 0)) (Rc.pf o.rcd 1 0 32) (.vote commit halt)
    | none => m
  | _, _, _ => m

/-- VERDICT_FIXED. -/
def Mod.verdictFix (m : Mod) (c : Nat) : Mod :=
  let x := m.ctx c
  let st := m.get F.STEP_STAT_state c
  if (st = 2 || st = 3) && x.lossDone && x.aggDone && x.updDone && !m.on F.STEP_STAT_verdict_fixed c then
    let held := m.condHolds c
    let acts := (held.zip (m.condPolicy c)).filter (·.1)
    let mask := ((List.range 6).map fun k => b2n (held.getD k false) * 2 ^ k).sum
    let m := (m.set F.STEP_STAT_verdict_fixed c 1).set F.STEP_STAT_cond c mask
    let m := m.setCtx c { m.ctx c with verdict := some (acts.all fun a => a.2 == 0, acts.any fun a => a.2 == 2) }
    let m := if mask ≠ 0 && m.on F.STEP_FLAGS_cond_flag_en c then
        m.ctxFlagAdd c (m.get F.STEP_FLAGS_cond_flag c) 1 Blk.STEP
      else m
    m.voteGo c
  else m

/-- Issues a `VOTE`. -/
def Mod.issueVote (m : Mod) (i : Nat) : Mod :=
  m.issue i 0x62 (voCheck i) fun m _ _ =>
    let c := qCtx i
    let m := m.modOp i fun o => { o with ready := false }
    let m := (m.set F.STEP_STAT_state c 3).setCtx c { m.ctx c with voteQ := some i }
    m.voteGo c

/-- The vote of context `c` ends without an outcome: the operation completes with a status and the step stays in `VOTING`
(R314, R375). -/
def Mod.voteEnd (m : Mod) (c : Nat) (st : Status) : Mod :=
  match (m.ctx c).voteQ with
  | none => m
  | some i =>
    let m := m.modOp i fun o => { o with status := st, ready := true }
    (m.setCtx c { m.ctx c with voteQ := none, vote := none }).spanForget c 0

/-- Tag of the vote that has issued. -/
def Mod.voteTag (m : Mod) (c : Nat) : Option Nat :=
  match (m.ctx c).voteQ with
  | some i => match (m.queue i).op with
    | some o => if Rc.opcode o.rcd = 0x62 then some (Rc.pf o.rcd 1 0 32) else none
    | none => none
  | none => none

/-- Whether a value of a vote with another tag has arrived. -/
def Mod.voteClash (m : Mod) (c tag : Nat) : Bool :=
  m.early.any fun p => match p.payload with
    | .span _ _ v => p.hdr.ctx.toNat == c && valKind v == 0 && Pk.tag p != tag
    | _ => false

/-! ### Closing (R321-R323) -/

/-- Free bytes replace the contents of the alternate buffer of tensor `j`, which no longer holds its state. -/
def Mod.altUndef (m : Mod) (c j : Nat) : Mod :=
  let d := m.desc (m.entryOf c j)
  let m := (castPlanes (m.region c (Ds.region d)) d (Ds.altOff d)).foldl (fun m p =>
    let (l, m) := m.drawBytes p.2
    m.wrInt p.1 l) m
  m.altWritten c j

/-- A failure leaves the alternate buffers of the touched tensors undefined. -/
def Mod.altUndefined (m : Mod) (c : Nat) : Mod := m.each (m.ctx c).prot fun m j => m.altUndef c j

/-- What closes with the step: its vote, its exchanges and its phases. -/
def Ctx.closeStep (x : Ctx) : Ctx :=
  { x with vote := none, voteQ := none, normRed := none, verdict := none, layers := [], named := [], prot := [],
           hostVeto := false, abandonOther := false, flipQ := none, flipSince := none }

/-- The step closes as failed or halted (Table 10.5); `st` is 0 or 5. -/
def Mod.stepFailed (m : Mod) (c st : Nat) : Mod :=
  let m := m.bump F.STEP_COUNTS_vetoed c 1
  let m := if m.on F.STEP_STAT_abandoned c then m.bump F.STEP_COUNTS_abandoned c 1 else m
  let m := m.altUndefined c
  let m := m.setCtx c (m.ctx c).closeStep
  let m := (m.set F.STEP_STAT_state c st).set F.STEP_STAT_reexec c 1
  ((m.set F.STEP_STAT_verdict_fixed c 0).set F.STEP_STAT_close_pending c 0).set F.STEP_STAT_flip_wait c 0

/-- Signal slots for an outcome (R192). -/
def splitMask (split pass : Bool) : Nat := if !split then 15 else if pass then 3 else 12

/-- The vote of context `c` resolves to a pair (R318). -/
def Mod.voteResolve (m : Mod) (c i : Nat) (commit halt : Bool) : Mod :=
  let out := if halt then 3 else if commit then 1 else 2
  let m := (m.set F.STEP_STAT_outcome c out).stepTrace c 2
  let m := m.steerResolve c (out == 1)
  let tag := (m.voteTag c).getD 0
  let m := m.setCtx c { m.ctx c with vote := none, voteQ := none }
  -- values of the resolved vote that are still under way are of no further use
  let m := { m with early := m.early.filter fun p => match p.payload with
    | .span _ _ v => !(p.hdr.ctx.toNat == c && valKind v == 0 && Pk.tag p == tag)
    | _ => true }
  if halt then (m.modOp i fun o => { o with status := ST_STEP_HALTED, ready := true }).stepFailed c 5
  else
    let m := m.set F.STEP_STAT_state c 4
    m.modOp i fun o => { o with ready := true, sigMask := splitMask ((Rc.p o.rcd 1).testBit 32) (out == 1) }

/-- What the vote has come to: stopped with its operation, met by another tag, or resolved. -/
def Mod.voteSettle (m : Mod) (c : Nat) : Mod :=
  match (m.ctx c).voteQ with
  | none => m
  | some i =>
    match m.voteTag c with
    | none => m.setCtx c { m.ctx c with voteQ := none, vote := none }
    | some tag =>
      if m.voteClash c tag then m.voteEnd c ST_COLL_MISMATCH
      else match m.spanResult c 0 with
        | some (.vote commit halt) => m.voteResolve c i commit halt
        | _ => m

/-! ### Flips (R311, R322) -/

/-- Toggles `cur` of tensor `j` of context `c` in every copy. -/
def Mod.toggleCur (m : Mod) (c j : Nat) : Mod :=
  let e := m.entryOf c j
  let d := m.desc e
  m.setDesc e (Ds.put d 9 1 (1 - b2n (Ds.cur d)))

/-- The flip of context `c` completes its operation. -/
def Mod.flipDone (m : Mod) (c i : Nat) (pass : Bool) : Mod :=
  let m := m.modOp i fun o => { o with ready := true, sigMask := splitMask ((Rc.p o.rcd 0).testBit 0) pass }
  m.stepTrace c 3

/-- A passing flip acts once the released buffers are free. -/
def Mod.flipGo (m : Mod) (c i : Nat) : Mod :=
  let x := m.ctx c
  let m := if x.flipSince.isSome then
      ((m.waitsCount c).bump F.STEP_WAIT_flips_waited c 1).set F.STEP_STAT_flip_wait c 0
    else m
  let s := m.get F.STEP_CUR_step c
  let m := m.each x.prot fun m j => m.toggleCur c j
  let m := m.castMap c fun e =>
    if x.prot.contains (Ce.desc e) then
      Ce.put (Ce.put (Ce.put e 192 63 (Ce.curSince e)) 255 1 1) 128 64 s
    else e
  let m := m.set F.STEP_COMMITTED_step c s
  let m := match x.pendLoss with
    | some (mu, v, n) => ((m.set F.STEP_LOSS_mu c mu).set F.STEP_LOSS_var c v).set F.STEP_LOSS_CNT_n c n
    | none => m
  let m := m.setCtx c { (m.ctx c).closeStep with released := x.prot, flips := (m.time :: x.flips).take 17 }
  let m := (m.kTake c).genBegin c s
  let m := (m.set F.STEP_STAT_state c 0).set F.STEP_STAT_reexec c 0
  let m := ((m.set F.STEP_STAT_verdict_fixed c 0).set F.STEP_STAT_close_pending c 0).set F.STEP_STAT_flip_wait c 0
  m.flipDone c i true

/-- The flip that has issued goes on, or waits for the generation in drain (R311). -/
def Mod.flipTry (m : Mod) (c : Nat) : Mod :=
  let x := m.ctx c
  match x.flipQ with
  | none => m
  | some i =>
    if (match (m.queue i).op with | some o => Rc.opcode o.rcd != 0x63 | none => true) then
      (m.setCtx c { x with flipQ := none, flipSince := none }).set F.STEP_STAT_flip_wait c 0
    else if x.prot.any fun j => m.drains c (m.entryOf c j) then
      if x.flipSince.isSome then m
      else (m.setCtx c { x with flipSince := some m.time }).set F.STEP_STAT_flip_wait c 1
    else m.flipGo c i

/-- Issues a `FLIP`. -/
def Mod.issueFlip (m : Mod) (i : Nat) : Mod :=
  m.issue i 0x63 (flCheck i) fun m _ _ =>
    let c := qCtx i
    if m.get F.STEP_STAT_outcome c = 1 then
      let m := m.modOp i fun o => { o with ready := false }
      (m.setCtx c { m.ctx c with flipQ := some i }).flipTry c
    else (m.stepFailed c 0).flipDone c i false

/-! ### Host requests (R323, R324) -/

/-- STEP_VETO. -/
def Mod.stepVeto (m : Mod) (c : Nat) : Mod :=
  if !m.stepOpen c then m.refuseCtx ST_NO_STEP Blk.STEP c
  else if m.on F.STEP_STAT_verdict_fixed c then m.lateCond c 4
  else m.setCtx c { m.ctx c with hostVeto := true }

/-- STEP_ABANDON. -/
def Mod.stepAbandon (m : Mod) (c : Nat) : Mod :=
  if m.stepOpen c then m.abandonStep c false else m.refuseCtx ST_NO_STEP Blk.STEP c

/-- STEP_CLOSE. -/
def Mod.stepClose (m : Mod) (c : Nat) : Mod :=
  if m.stepOpen c then m.set F.STEP_STAT_close_pending c 1 else m.refuseCtx ST_NO_STEP Blk.STEP c

/-- CLOSE_TAKES_EFFECT. -/
def Mod.closeNow (m : Mod) (c : Nat) : Mod :=
  if m.stepOpen c && m.on F.STEP_STAT_close_pending c && !m.opsRunning c [0x62, 0x63, 0x55]
      && (m.get F.STEP_STAT_state c == 1 || (m.ctx c).updDone) then
    (((m.steerResolve c false).stepFailed c 0).spanForget c 0).stepTrace c 5
  else m

/-- STEP_CLEAR_HALT. -/
def Mod.stepClearHalt (m : Mod) (c : Nat) : Mod :=
  if m.get F.STEP_STAT_state c = 5 then m.set F.STEP_STAT_state c 0 else m.refuseCtx ST_NO_STEP Blk.STEP c

/-- STEP_SET: the step committed last becomes `v`. -/
def Mod.stepSet (m : Mod) (c v : Nat) : Mod :=
  let s := m.get F.STEP_STAT_state c
  if s = 0 || s = 5 then m.set F.STEP_COMMITTED_step c v else m.refuseCtx ST_STEP_OPEN Blk.STEP c

/-! ### What a context has come to -/

/-- Takes finished reductions, resumes flips and holds of context `c`. -/
def Mod.ctxSettle (m : Mod) (c : Nat) : Mod :=
  let m := (m.normTake c).voteSettle c
  let m := (m.castTry c).castResolve c
  let m := if (m.ctx c).drain.isNone then (m.waitsCount c).holdsEnd c else m
  if (m.ctx c).flipSince.isSome then m.flipTry c else m

end Sys2Proof.Machine
end

