-- ==== Sys2Proof/Machine/Restore.lean ====
section
/-! DEFINITION. Cast packets at their receiver (R328, R329, R341, R344, R347) and the restore (R350-R353). -/

namespace Sys2Proof.Machine

/-! ### Reading a cast packet (R344) -/

def Cp.gen (p : Packet) : Nat := bits p.hdr.opq.toNat 0 32
def Cp.kind (p : Packet) : Nat := bits p.hdr.opq.toNat 32 2
def Cp.off (p : Packet) : Nat := bits p.hdr.opq.toNat 34 30 * 4096

/-! ### Storing (R329, R341) -/

/-- `CAST_ACK` to a sender: what is stored of its generation, per kind. Where the sender cannot be reached, the generation is
abandoned (R331). -/
def Mod.castAckTo (m : Mod) (c g sender : Nat) : Mod :=
  let n (k : Nat) : Nat := match m.castSlot c k sender g with | some s => s.stored | none => 0
  let (ok, m) := m.send (some c) 0 0x24 sender (.castAck (n 0) (n 1) (n 2)) 0 (castOpq g 0 0)
  if !ok && (m.ctx c).drain.any (fun d => d.gen.toNat == g) then m.genAbandon c ST_NO_ROUTE else m

/-- Stores bytes of a mirror stream or record at `base` of their slot, if it is still filling. The highest contiguous offset
advances when they follow on it. -/
def Mod.castPut (m : Mod) (c kind sender g off : Nat) (base : Mod → Nat → Nat) (l : List Byte) : Mod :=
  let (s, m) := m.slotFor c kind sender g
  if s.state ≠ 0 then m
  else
    let m := m.wrInt (base m s.slot + off) l
    let s := if off = s.stored then { s with stored := off + l.length } else s
    (m.putSlot c s.land).castAckTo c g sender

/-- Takes bytes of a parity stream into a row: XORed into the target slot, which the first δ of a generation sets to the
other slot. -/
def Mod.rowTake (m : Mod) (c row g off : Nat) (delta : Bool) (l : List Byte) : Mod :=
  let s := m.rowTarget c row g
  let m := if delta && m.rowTag c row s ≠ g then
      let (old, m) := m.rdInt (m.rowAt c row (1 - s)) mib
      (m.wrInt (m.rowAt c row s) old).setRowTag c row s g
    else m
  let a := m.rowAt c row s + off
  let (old, m) := m.rdInt a l.length
  m.wrInt a (xorBytes old l)

/-- Member index of an address of the group. -/
def Mod.parIndex (m : Mod) (c addr : Nat) : Nat :=
  m.parPlace c (coord addr (m.get F.CAST_CFG_parity_axis c)) % (m.parK c + 1)

/-- Parity bytes from a member of the group. -/
def Mod.castParity (m : Mod) (c : Nat) (p : Packet) (delta : Bool) (l : List Byte) : Mod :=
  let g := Cp.gen p
  let sender := p.hdr.src.toNat
  let k := max (m.parK c) 1
  let x := Cp.off p / mib
  if !(m.parOthers c).contains sender || parHolder k (m.parIndex c sender) x != m.parSelf c || m.storeRows c ≤ x / k
      || mib < Cp.off p % mib + l.length then m
  else
    let (s, m) := m.slotFor c 1 sender g
    if s.state ≠ 0 then m
    else
      let m := if delta then m else m.rowsFull c g
      let m := m.rowTake c (x / k) g (Cp.off p % mib) delta l
      (m.putSlot c { s with stored := s.stored + l.length }.land).castAckTo c g sender

/-- Stores a packet of stream or record bytes; without a loaded list, or from a module that sends no casts here, it is
dropped. -/
def Mod.castKeep (m : Mod) (c : Nat) (p : Packet) (l : List Byte) : Mod :=
  let sender := p.hdr.src.toNat
  let n := Cp.off p + l.length
  if !(m.ctx c).castLoaded then m
  else match p.hdr.ptype.toNat, Cp.kind p with
    | 0x20, 0 =>
      if m.on F.CAST_CFG_mirror_en c && sender == m.mirrorPeer c true && decide (n ≤ m.get F.CAST_SIZE_mirror_ext c * mib) then
        m.castPut c 0 sender (Cp.gen p) (Cp.off p) (fun m s => m.mirAt c s) l
      else m
    | 0x20, 1 => m.castParity c p false l
    | 0x21, _ => m.castParity c p true l
    | 0x22, _ =>
      if (m.castPeers c true).contains sender && decide (n ≤ m.recBytes c) then
        m.castPut c 2 sender (Cp.gen p) (Cp.off p) (fun m s => m.recAt c sender s) l
      else m
    | _, _ => m

/-- A `CAST_DONE`: the byte counts of the sender's streams (R328). -/
def Mod.castDone (m : Mod) (c : Nat) (p : Packet) (mir par rcd : Nat) : Mod :=
  let g := Cp.gen p
  let sender := p.hdr.src.toNat
  let said (m : Mod) (kind n : Nat) : Mod :=
    let (s, m) := m.slotFor c kind sender g
    if s.state ≠ 0 then m else m.putSlot c { s with said := some n }.land
  if !(m.ctx c).castLoaded then m
  else if m.on F.CAST_CFG_mirror_en c && sender == m.mirrorPeer c true then said (said m 0 mir) 2 rcd
  else if (m.parOthers c).contains sender then said (said m 1 par) 2 rcd
  else m

/-- A `CAST_ACK` (R328). -/
def Mod.castAck (m : Mod) (c : Nat) (p : Packet) (mir par rcd : Nat) : Mod :=
  let x := m.ctx c
  let who := p.hdr.src.toNat
  match x.drain with
  | some d =>
    if d.gen.toNat ≠ Cp.gen p then m
    else
      let keep := d.acked.filter (·.1 != who)
      m.setCtx c { x with drain := some { d with acked := keep ++ [(who, 0, mir), (who, 1, par), (who, 2, rcd)] } }
  | none => m

/-! ### Serving fetches (R350, R351) -/

/-- Where the bytes that a fetch asks for stand, if a landed or sealed slot holds them; none inside for bytes of zero past the
end of a stream. -/
def Mod.fetchAt (m : Mod) (c sender g kind off : Nat) : Option (Option Nat) :=
  let held (k : Nat) : Option CastSlot := match m.castSlot c k sender g with
    | some s => if s.state = 0 then none else some s
    | none => none
  if !(m.ctx c).castLoaded then none
  else match kind with
    | 0 => (held 0).map fun s => some (m.mirAt c s.slot + off)
    | 2 => (held 2).map fun s => some (m.recAt c sender s.slot + off)
    | _ =>
      if sender = m.logical then some ((m.castStream c 1 false)[off / mib]?.map fun a => a + off % mib)
      else
        let k := max (m.parK c) 1
        let row := off / mib / k
        let fit (s : Nat) : Nat := let t := m.rowTag c row s; if t ≤ g then t else 0
        if parHolder k (m.parIndex c sender) (off / mib) ≠ m.parSelf c || m.storeRows c ≤ row then none
        else if !(m.parOthers c).all (fun s => match m.castSlot c 1 s g with | some x => x.state != 0 | none => false) then none
        else if fit 0 = 0 && fit 1 = 0 then none
        else some (some (m.rowAt c row (if fit 0 < fit 1 then 1 else 0) + off % mib))

/-- The bytes that a fetch asks for, if they are held and good, and the module after it has read them. -/
def Mod.fetchBytes (m : Mod) (c sender g kind off len : Nat) : Option (List Byte) × Mod :=
  match m.fetchAt c sender g kind off with
  | none => (none, m)
  | some none => (some (List.replicate len 0), m)
  | some (some a) =>
    let (l, m') := m.rdInt a len
    if m.poisonedIn a len then (none, m) else (some l, m')

/-- The route to an address with the way round axis `a` given, where that way is open (R351). -/
def Mod.routeWay (m : Mod) (dst a : Nat) (minus : Bool) : Option Nat :=
  match m.route dst with
  | none => none
  | some r =>
    let p := m.remap dst
    match (List.range 4).find? (fun k => m.axisAt k == a) with
    | none => some r
    | some k =>
      let cur := (List.range k).foldl (fun x j => setCoord x (m.axisAt j) (coord p (m.axisAt j))) m.phys
      let e := max (m.extent a) 1
      let d := (coord p a + e - coord cur a % e) % e
      let h := if minus then e - d else d
      if d = 0 || m.crosses cur a h minus then some r else some (setBits r (8 * k) 8 (h + 64 * b2n minus))

/-- Answers a fetch in the direction it names. What is not held is answered with a single byte, shorter than any block asked
for; `own` marks bytes of the module's own stream. -/
def Mod.fetchReply (m : Mod) (c to_ g kind off : Nat) (own dir : Bool) (l : Option (List Byte)) : Mod :=
  match m.routeWay to_ (m.get F.CAST_CFG_mirror_axis c) dir with
  | none => m
  | some r =>
    let pl := Payload.bytes (l.getD [0])
    m.sendRouted 2 { hdr := { m.header (some c) 0x20 to_ pl (b2n own) (castOpq g kind off) with route := BitVec.ofNat 32 r },
                     payload := pl }

/-- A `CAST_FETCH`. Bytes of the own stream for parity wait until the module's own restore has written its state. -/
def Mod.castFetch (m : Mod) (p : Packet) : Mod :=
  match p.payload with
  | .castFetch sender gen kind off len dir =>
    let c := p.hdr.ctx.toNat
    let own := kind = 1 && sender.toNat == m.logical
    if own && (m.ctx c).restored != some gen then { m with early := m.early ++ [p] }
    else
      let (l, m) := m.fetchBytes c sender.toNat gen.toNat kind.toNat off len
      m.fetchReply c p.hdr.src.toNat gen.toNat kind.toNat off own dir l
  | _ => m

/-! ### Restore: the end (R351-R353) -/

/-- Changes the restore in progress. -/
def Mod.modRestore (m : Mod) (c : Nat) (f : Restore → Restore) : Mod :=
  let x := m.ctx c
  m.setCtx c { x with restore := x.restore.map f }

/-- Whether a source is fetched. -/
def Source.fetched : Source → Bool
  | .mirror | .parity => true
  | _ => false

/-- Whether data have begun to fill the alternate buffer of an entry. -/
def Mod.entryBegun (m : Mod) (c : Nat) (r : Restore) (e : CastEntry) (s : Source) : Bool :=
  let n := (m.castExts c e true).length
  let hit (kind off : Nat) : Bool := r.acc.any fun a =>
    a.1 == kind && decide (off * mib ≤ a.2.1) && decide (a.2.1 < (off + n) * mib)
  match s with
  | .mirror => hit 0 (Ce.mirrorOff e)
  | .parity => hit 1 (Ce.parityOff e)
  | _ => false

/-- Ends a restore with a status; alternate buffers that data had begun to fill are undefined, and no longer hold their state. -/
def Mod.restoreEnd (m : Mod) (c : Nat) (st : Status) : Mod :=
  let x := m.ctx c
  match x.restore with
  | none => m
  | some r =>
    let m := if st = ST_OK then m else
        ((x.castList.zip r.sources).filter fun e => m.entryBegun c r e.1 e.2).foldl (fun m e =>
          m.altUndef c (Ce.desc e.1)) m
    ((m.setCtx c { m.ctx c with restore := none }).castIdle c).castCmdEnd c st

/-! ### Restore: asking (R351) -/

/-- Asks `who` for a 4 KiB block; false where no route is open. `own`: a block of the answerer's own stream. -/
def Mod.askBlock (m : Mod) (c who sender g kind off : Nat) (own : Bool) : Bool × Mod :=
  let dir := bit (off / 4096) 0
  let (ok, m) := m.send (some c) 0 0x25 who
    (.castFetch (BitVec.ofNat 24 sender) (BitVec.ofNat 32 g) (BitVec.ofNat 2 kind) off 4096 dir) 0 (castOpq g kind off)
  (ok, m.modRestore c fun r => { r with want := r.want ++ [(who, if own then 3 else kind, off)] })

/-- Asks for several blocks: (answerer, sender, kind, offset, own). -/
def Mod.askBlocks (m : Mod) (c g : Nat) (l : List (Nat × Nat × Nat × Nat × Bool)) : Bool × Mod :=
  l.foldl (fun (a : Bool × Mod) e =>
    let (ok, m) := a.2.askBlock c e.1 e.2.1 g e.2.2.1 e.2.2.2.1 e.2.2.2.2
    (a.1 && ok, m)) (true, m)

/-- Blocks of [`off`, `off` + `n`). -/
def blocksOf (off n : Nat) : List Nat := (List.range (ceilDiv n 4096)).map fun b => off + 4096 * b

/-- The blocks of an entry from its source. -/
def Mod.entryAsk (m : Mod) (c : Nat) (e : CastEntry) (s : Source) : List (Nat × Nat × Nat × Nat × Bool) :=
  let n := (m.castExts c e true).length
  match s with
  | .mirror => (blocksOf (Ce.mirrorOff e * mib) (n * mib)).map fun o => (m.mirrorPeer c false, m.logical, 0, o, false)
  | .parity =>
    let k := max (m.parK c) 1
    let f := m.parSelf c
    (List.range n).flatMap fun j =>
      let x := Ce.parityOff e + j
      let h := parHolder k f x
      (blocksOf (x * mib) mib).flatMap fun o =>
        (m.parMember c h, m.logical, 1, o, false) ::
          ((List.range (k + 1)).filter fun i => i != f && i != h).map fun i =>
            (m.parMember c i, m.parMember c i, 1, parExtent k i h (x / k) * mib + o % mib, true)
  | _ => []

/-- The source of an entry at step `s` (R351), none where nothing holds it. -/
def Mod.entrySource (m : Mod) (c s : Nat) (e : CastEntry) : Option Source :=
  if Ce.curSince e ≤ s then some .current
  else if Ce.altValid e && decide (Ce.altSince e ≤ s) && decide (s < Ce.curSince e) then some .alternate
  else if inStream 0 (Ce.method e) && m.on F.CAST_CFG_mirror_en c then some .mirror
  else if inStream 1 (Ce.method e) && m.on F.CAST_CFG_parity_en c then some .parity
  else none

/-! ### Restore: the record (R345, R352) -/

/-- A little-endian field of a record. -/
def recNat (r : List Byte) (off n : Nat) : Nat := leNat (slice r off n)

/-- `CAST_TOKEN` of a context. -/
def Mod.castToken (m : Mod) (c : Nat) : Nat :=
  ((List.range 4).map fun k =>
    m.regAt (R.CAST_TOKEN.base + R.CAST_TOKEN.stride * c + R.CAST_TOKEN.stride2 * k) 0 * 2 ^ (64 * k)).sum

/-- Asks for entry `k` of the list from its source; where the mirror has no open route, an entry under `BOTH` turns to parity. -/
def Mod.entryFetch (m : Mod) (c g k : Nat) (e : CastEntry) (s : Source) : Bool × Mod :=
  let (ok, m1) := m.askBlocks c g (m.entryAsk c e s)
  if ok then (true, m1)
  else if s = .mirror && inStream 1 (Ce.method e) && m.on F.CAST_CFG_parity_en c then
    (m.modRestore c fun t => { t with sources := t.sources.set k .parity }).askBlocks c g (m.entryAsk c e .parity)
  else (false, m1)

/-- The record is at hand and passes R352: sources are chosen and asked for. -/
def Mod.restoreSources (m : Mod) (c g : Nat) (r : List Byte) : Mod :=
  let s := recNat r 0x10 8
  let l := (m.ctx c).castList
  let src := l.map (m.entrySource c s)
  if src.any Option.isNone then m.restoreEnd c ST_CAST_LOST
  else
    let src := src.map fun o => o.getD .current
    let m := m.modRestore c fun t => { t with record := some r, sources := src, part := [], tries := [] }
    let (ok, m) := ((List.range l.length).zip (l.zip src)).foldl (fun (a : Bool × Mod) e =>
      if a.1 then a.2.entryFetch c g e.1 e.2.1 e.2.2 else a) (true, m)
    if ok then m else m.restoreEnd c ST_CAST_LOST

/-- Checks a record (R352); none: the restore moves to the next source. -/
def Mod.recordCheck (m : Mod) (c g : Nat) (check : Bool) (r : List Byte) : Option Status :=
  let n := recNat r 0xC 4
  if recNat r 0 4 ≠ 0xCA575EC0 || recNat r 4 2 ≠ 1 || recNat r 8 4 ≠ g || r.length < n then none
  else if recNat r 0x120 4 ≠ g || recNat r (n - 32) 4 ≠ g || recNat r 0x128 8 ≠ recNat r 0x10 8
    || recNat r (n - 24) 8 ≠ recNat r 0x10 8 then some ST_RESTORE_TAG
  else if check && recNat r 0x100 32 ≠ m.castToken c then some ST_RESTORE_TOKEN
  else some ST_OK

/-- Tries the sources of the record in turn. -/
def Mod.recordTry (m : Mod) (c g : Nat) (check : Bool) : List Nat → Mod
  | [] => m.restoreEnd c ST_CAST_LOST
  | who :: rest =>
    let m := m.modRestore c fun t => { t with tries := rest, part := [], want := [] }
    if who = m.logical then
      match m.castSlot c 2 who g with
      | some s =>
        let a := m.recAt c who s.slot
        if s.state = 0 || m.poisonedIn a (m.recBytes c) then m.recordTry c g check rest
        else
          let (r, m) := m.rdInt a (m.recBytes c)
          match m.recordCheck c g check r with
          | none => m.recordTry c g check rest
          | some st => if st = ST_OK then m.restoreSources c g r else m.restoreEnd c st
      | none => m.recordTry c g check rest
    else
      let (ok, m') := m.askBlocks c g ((blocksOf 0 (m.recBytes c)).map fun o => (who, m.logical, 2, o, false))
      if ok then m' else m.recordTry c g check rest

/-- CAST_RESTORE (R350). -/
def Mod.castRestore (m : Mod) (c : Nat) (check : Bool) : Mod :=
  if m.on F.CAST_CMD_busy c then m.refuseCtx ST_BUSY Blk.CAST c
  else if m.stepOpen c then m.castCmdEnd c ST_STEP_OPEN
  else if !(m.ctx c).castLoaded then m.castCmdEnd c ST_CAST_CONFIG
  else if (ctxQueues c).any m.qBusy then m.castCmdEnd c ST_BUSY
  else
    let g := if m.get F.CAST_RESTORE_GEN_gen c = 0 then m.get F.CAST_GEN_gen_job c else m.get F.CAST_RESTORE_GEN_gen c
    let m := m.set F.CAST_CMD_busy c 1
    let m := (m.setCtx c { m.ctx c with restore := some { gen := BitVec.ofNat 32 g, check := check } }).genAbandon c ST_CAST_ABANDONED
    let m := m.set F.CAST_STAT_state c 3
    m.recordTry c g check (m.logical :: m.castPeers c false)

/-! ### Restore: data arrive -/

/-- Own stream offset of a block that `who` answers for a rebuild from parity (R339). -/
def Mod.parOwnOff (m : Mod) (c who off : Nat) (own : Bool) : Nat :=
  if !own then off
  else
    let k := max (m.parK c) 1
    let i := m.parIndex c who
    let x := off / mib
    let h := (i + 1 + x % k) % (k + 1)
    parExtent k (m.parSelf c) h (x / k) * mib + off % mib

/-- Bytes kept for a rebuild: XORed onto what has come for the same place. -/
def accPut (l : List (Nat × Nat × List Byte)) (kind off : Nat) (b : List Byte) : List (Nat × Nat × List Byte) :=
  if l.any (fun e => e.1 == kind && e.2.1 == off) then
    l.map fun e => if e.1 = kind && e.2.1 = off then (kind, off, xorBytes e.2.2 b) else e
  else l ++ [(kind, off, b)]

/-- A source turns out not to hold a block that was asked of it. -/
def Mod.notHeld (m : Mod) (c : Nat) (r : Restore) (kind off : Nat) : Mod :=
  let x := m.ctx c
  if kind = 2 then m.recordTry c r.gen.toNat r.check r.tries
  else if kind ≠ 0 then m.restoreEnd c ST_CAST_LOST
  else
    -- the entry of the block turns to parity, if its method allows
    let inside (e : CastEntry) (o : Nat) : Bool :=
      decide (Ce.mirrorOff e * mib ≤ o) && decide (o < (Ce.mirrorOff e + (m.castExts c e true).length) * mib)
    match x.castList.findIdx? (fun e => inStream 0 (Ce.method e) && inside e off) with
    | none => m.restoreEnd c ST_CAST_LOST
    | some k => match x.castList[k]? with
      | none => m
      | some e =>
        if !(inStream 1 (Ce.method e) && m.on F.CAST_CFG_parity_en c) then m.restoreEnd c ST_CAST_LOST
        else
          let m := m.modRestore c fun t => { t with
            sources := t.sources.set k .parity,
            want := t.want.filter fun w => !(w.2.1 == 0 && inside e w.2.2),
            acc := t.acc.filter fun a => !(a.1 == 0 && inside e a.2.1) }
          let (ok, m) := m.askBlocks c r.gen.toNat (m.entryAsk c e .parity)
          if ok then m else m.restoreEnd c ST_CAST_LOST

/-- A block arrives that the restore of context `c` has asked for. -/
def Mod.restoreTake (m : Mod) (c : Nat) (r : Restore) (who kind off : Nat) (l : List Byte) : Mod :=
  let m := m.modRestore c fun t => { t with want := t.want.erase (who, kind, off) }
  if l.length < 4096 then m.notHeld c r kind off
  else if kind = 2 then
    let m := m.modRestore c fun t => { t with part := t.part ++ [(off, l)] }
    match (m.ctx c).restore with
    | some t =>
      if t.want.isEmpty then
        let b := (blocksOf 0 (m.recBytes c)).flatMap fun o => match t.part.find? (·.1 == o) with | some e => e.2 | none => []
        match m.recordCheck c t.gen.toNat t.check b with
        | none => m.recordTry c t.gen.toNat t.check t.tries
        | some st => if st = ST_OK then m.restoreSources c t.gen.toNat b else m.restoreEnd c st
      else m
    | none => m
  else if kind = 0 then m.modRestore c fun t => { t with acc := accPut t.acc 0 off l }
  else m.modRestore c fun t => { t with acc := accPut t.acc 1 (m.parOwnOff c who off (kind == 3)) l }

/-! ### Restore: completion (R353) -/

/-- The bytes gathered for a stream range. -/
def accBytes (l : List (Nat × Nat × List Byte)) (kind off n : Nat) : List Byte :=
  (blocksOf off n).flatMap fun o => match l.find? (fun e => e.1 == kind && e.2.1 == o) with
    | some e => e.2.2
    | none => List.replicate 4096 0

/-- Writes the fetched planes of an entry into its alternate buffer. -/
def Mod.entryWrite (m : Mod) (c : Nat) (r : Restore) (e : CastEntry) (s : Source) : Mod :=
  let (kind, x) := match s with | .mirror => (0, Ce.mirrorOff e) | _ => (1, Ce.parityOff e)
  let d := m.castDesc c e
  ((castPlanes (m.castRgn c e) d (Ds.altOff d)).foldl (fun (a : Nat × Mod) p =>
    let n := ceilDiv p.2 mib
    (a.1 + n, a.2.wrInt p.1 ((accBytes r.acc kind (a.1 * mib) (n * mib)).take p.2))) (x, m)).2

/-- Writes the tables of the record (R353). -/
def Mod.restoreTables (m : Mod) (c : Nat) (r : List Byte) : Mod :=
  let m := m.each (List.range 256) fun m i =>
    let g := recNat r (0x180 + 32 * i) 32
    if g = 0 then m
    else
      let w : W256 := BitVec.ofNat 256 (setBits g 202 1 0)
      { m with groupsPend := Tab.set 0 m.groupsPend i w, groupsLatch := Tab.set 0 m.groupsLatch i w }
  let m := m.each (List.range 4096) fun m i =>
    let w : W256 := BitVec.ofNat 256 (recNat r (0x2180 + 32 * i) 32)
    let old := Tab.get 0 m.streams i
    if w ≠ 0 || (St.valid old && St.owner old = c) then
      { m with streams := Tab.set 0 m.streams i w, streamsLatch := Tab.set 0 m.streamsLatch i w }
    else m
  let m := m.each (List.range (recNat r 0x30 4)) fun m k =>
    let a := 0x22180 + 40 * k
    let j := bits (recNat r a 4) 0 17
    let e := m.entryOf c j
    let d := Ds.put (Ds.put (Ds.put (Ds.put (m.desc e) 0 4 (recNat r (a + 4) 1)) 64 32 (recNat r (a + 8) 4)) 96 32
      (recNat r (a + 12) 4)) 128 64 (recNat r (a + 16) 8)
    let (st, m) := m.descStore (some c) e d
    let m := if st = ST_OK then m else m.refuseCtx st Blk.CAST c
    m.wrInt (m.statAt c j + 0x80) (slice r (a + 24) 16)
  let m := (m.set F.STEP_LOSS_mu c (recNat r 0x20 4)).set F.STEP_LOSS_var c (recNat r 0x24 4)
  m.set F.STEP_LOSS_CNT_n c (recNat r 0x28 2)

/-- RESTORE_COMPLETE. -/
def Mod.restoreDone (m : Mod) (c : Nat) : Mod :=
  let x := m.ctx c
  match x.restore with
  | none => m
  | some r => match r.record with
    | none => m
    | some rcd =>
      if !r.want.isEmpty then m
      else
        let s := recNat rcd 0x10 8
        let es := x.castList.zip r.sources
        let m := es.foldl (fun m e => if e.2.fetched then m.entryWrite c r e.1 e.2 else m) m
        let m := es.foldl (fun m e => if e.2 = .current then m else m.toggleCur c (Ce.desc e.1)) m
        let m := m.castMap c fun e => Ce.put (Ce.put e 128 64 s) 255 1 0
        let m := m.restoreTables c rcd
        let m := ((m.set F.CAST_GEN_gen_job c r.gen.toNat).set F.CAST_GEN_STEP_step c s).set F.CAST_STAT_full_next c 1
        -- a differing epoch is recorded; the spec names no status for it
        let m := if recNat rcd 0x18 2 = m.get F.RTE_EPOCH_epoch then m
          else
            let (st, m) := m.someStatus
            m.log { st := st, cls := .event, block := Blk.CAST, ctx := c, d0 := recNat rcd 0x18 2 }
        let m := m.setCtx c { m.ctx c with restored := some r.gen, released := [] }
        let m := m.forgetAfter c r.gen.toNat
        let m := m.restoreEnd c ST_OK
        -- fetches of the own stream that have waited
        let mine (p : Packet) : Bool := match p.payload with
          | .castFetch _ g _ _ _ _ => p.hdr.ctx.toNat == c && g == r.gen
          | _ => false
        let wait := m.early.filter mine
        wait.foldl Mod.castFetch { m with early := m.early.filter fun p => !mine p }

/-! ### Cast packets at their destination -/

/-- CAST_DATA_RECEIVE, CAST_DELTA_RECEIVE, CAST_REC_RECEIVE, CAST_DONE_RECEIVE, CAST_ACK_RECEIVE, CAST_FETCH_RECEIVE. -/
def Mod.castPacket (m : Mod) (p : Packet) : Mod :=
  let c := p.hdr.ctx.toNat
  match p.payload with
  | .bytes l =>
    let kind := if Cp.kind p = 1 && p.hdr.bseq = 1 then 3 else Cp.kind p
    match (m.ctx c).restore with
    | some r =>
      if p.hdr.ptype = 0x20 && r.gen.toNat == Cp.gen p && r.want.contains (p.hdr.src.toNat, kind, Cp.off p) then
        m.restoreTake c r p.hdr.src.toNat kind (Cp.off p) l
      else m.castKeep c p l
    | none => m.castKeep c p l
  | .castDone a b d => m.castDone c p a b d
  | .castAck a b d => m.castAck c p a b d
  | .castFetch _ _ _ _ _ _ => m.castFetch p
  | _ => m

end Sys2Proof.Machine
end

