-- ==== Sys2Proof/Machine/Contexts.lean ====
section
/-! DEFINITION. Contexts (R130-R132), regions (R134, R135), queues and doorbells (R140, R145, R146), descriptors from PF0
(R157, R158), context switches (R159), interludes (R161, R162), teardown (R382, R383) and pending enables (R384). -/

namespace Sys2Proof.Machine

/-! ### Region commands (R135) -/

/-- The staged region entry. -/
def Mod.stagedRegion (m : Mod) : W256 :=
  BitVec.ofNat 256 (m.get F.CTX_RGN_STAGE_data 0 + m.get F.CTX_RGN_STAGE_data 1 * 2 ^ 64
    + m.get F.CTX_RGN_STAGE_data 2 * 2 ^ 128 + m.get F.CTX_RGN_STAGE_data 3 * 2 ^ 192)

/-- A region command completes with a status. -/
def Mod.regionEnd (m : Mod) (c : Nat) (st : Status) : Mod :=
  let m := m.set F.CTX_RGN_STAT_status 0 st
  if st = ST_OK then m else m.set F.CTX_STAT_last_status c st

/-- REGION_WRITE: `CTX_RGN_CMD` with `op` 1. -/
def Mod.regionWrite (m : Mod) (c n : Nat) : Mod :=
  let g := m.stagedRegion
  if m.regionOk c g then ({ m with regions := Tab.set 0 m.regions (1024 * c + n) g }).regionEnd c ST_OK
  else m.regionEnd c ST_BAD_REGION

/-- REGION_READ: `CTX_RGN_CMD` with `op` 0. -/
def Mod.regionRead (m : Mod) (c n : Nat) : Mod :=
  let g := (m.region c n).toNat
  (m.each (List.range 4) fun m k => m.set F.CTX_RGN_STAGE_data k (bits g (64 * k) 64)).regionEnd c ST_OK

/-! ### Enable (R131, R418, R460) -/

/-- Whether [`a`, `a` + `n`) and [`b`, `b` + `k`) share a number. -/
def shares (a n b k : Nat) : Bool := overlap a n b k

/-- The status of the first check of R131 that fails. -/
def Mod.ctxCheck (m : Mod) (c : Nat) : Status :=
  let live := (List.range 64).filter fun o => o != c && m.ctxState o != 0
  let tb := m.get F.CTX_QUOTA_tdt_base c
  let tc := m.get F.CTX_QUOTA_tdt_count c
  let fb := m.get F.CTX_FLG_RANGE_flag_base c
  let fc := m.get F.CTX_FLG_RANGE_flag_count c
  if !m.on F.BOOT_STAT_ready || m.get F.PWR_MS_CTL_state != 0 then ST_CTX_STATE
  else if m.get F.CTX_CFG_part_mask c = 0 then ST_CTX_STATE
  else if 122880 < tb + tc then ST_QUOTA
  else if live.any (fun o => shares tb tc (m.get F.CTX_QUOTA_tdt_base o) (m.get F.CTX_QUOTA_tdt_count o)) then ST_QUOTA
  else if 65536 < fb + fc then ST_QUOTA
  else if live.any (fun o => shares fb fc (m.get F.CTX_FLG_RANGE_flag_base o) (m.get F.CTX_FLG_RANGE_flag_count o)) then ST_QUOTA
  else if m.on F.CTX_CFG_vf_bound c
      && live.any (fun o => m.on F.CTX_CFG_vf_bound o && m.get F.CTX_CFG_vf o == m.get F.CTX_CFG_vf c) then ST_QUOTA
  else ST_OK

/-- Enables a `DISABLED` context, or records why not (R131); its steps start `IDLE` with 0 committed (R312) and no list
marked as run (R165). -/
def Mod.ctxEnableNow (m : Mod) (c : Nat) : Mod :=
  let st := m.ctxCheck c
  if st ≠ ST_OK then m.set F.CTX_STAT_last_status c st
  else
    let m := m.setCtx c { iludes := (m.ctx c).iludes, kNow := (m.ctx c).kNow }
    let m := (m.set F.CTX_STAT_state c 1).count F.CTX_STAT_gen c 1
    let m := (m.setRegAt (R.STEP_STAT.base + R.STEP_STAT.stride * c) R.STEP_STAT.reset R.STEP_STAT.reset).set F.STEP_COMMITTED_step c 0
    (m.set F.STEP_LOSS_CNT_n c 0).ctxHeads c

/-- CTX_ENABLE: a `DRAINING` context keeps the request pending (R384). -/
def Mod.ctxEnable (m : Mod) (c : Nat) : Mod :=
  match m.ctxState c with
  | 0 => m.ctxEnableNow c
  | 1 => m.refuseCtx ST_CTX_STATE Blk.CTX c
  | _ => if m.on F.BOOT_STAT_ready then m.setBit F.FLT_PEND_CTX_ctx 0 c true else m.set F.CTX_STAT_last_status c ST_CTX_STATE

/-! ### Interludes (R161, R162) -/

/-- The interlude of evaluation context `e` that the operation of queue `i` granted. -/
def Mod.ilOf (m : Mod) (e i : Nat) : Option Interlude := (m.ctx e).iludes.find? (·.queue == i)

/-- Changes that interlude. -/
def Mod.modIl (m : Mod) (e i : Nat) (f : Interlude → Interlude) : Mod :=
  m.setCtx e { m.ctx e with iludes := (m.ctx e).iludes.map fun il => if il.queue == i then f il else il }

/-- Removes that interlude. -/
def Mod.dropIl (m : Mod) (e i : Nat) : Mod :=
  m.setCtx e { m.ctx e with iludes := (m.ctx e).iludes.filter (·.queue != i) }

/- Operands of an `INTERLUDE` record (Table 6.9). -/
namespace IlRec
def ctx (r : W1024) : Nat := Rc.pf r 0 0 6
def budget (r : W1024) : Nat := Rc.pf r 0 6 20
def flag (r : W1024) : Nat := Rc.pf r 0 32 16
def target (r : W1024) : W64 := BitVec.ofNat 64 (Rc.p r 1)
end IlRec

def ilCheck (i : Nat) (m : Mod) (r : W1024) (_caps : List Cap) : Status :=
  let c := qCtx i
  let e := IlRec.ctx r
  if IlRec.budget r = 0 || 1000000 < IlRec.budget r then ST_BAD_ATTR
  else if !m.flagIn e (IlRec.flag r) then ST_BAD_FLAG
  else if m.stepOpen c then ST_STEP_OPEN
  else if e = c || m.ctxState e ≠ 1 then ST_CTX_STATE
  else ST_OK

/-- Whether an operation of a context for which `who` holds runs a share on a partition of `parts`. -/
def Mod.runsOn (m : Mod) (parts : Nat) (who : Nat → Bool) : Bool :=
  m.liveQueues.any fun i => who (qCtx i) && match (m.queue i).op with
    | some o => (o.parts &&& parts) != 0
    | none => false

/-- Makes context `c` active on partition `p`: `CTX_SWITCH`, the outgoing context's prefetched records discarded (R160). -/
def Mod.activate (m : Mod) (p c : Nat) : Mod :=
  let x := m.part p
  if x.active = some c then m
  else
    let m := m.setPart p { x with active := some c, since := m.time }
    match x.active with
    | some o =>
      let m := m.each ((ctxQueues o).filter fun i => (m.qMask i).testBit p) fun m i =>
        m.setQueue i { m.queue i with fetched := (m.queue i).fetched.take 1 }
      m.trace p 0x05 c 0 0xFFFF (o + c * 2 ^ 8)
    | none => m

/-- Operations of context `c` in flight but that of queue `i`: queue and record number. -/
def Mod.flying (m : Mod) (c i : Nat) : List (Nat × W32) :=
  ((ctxQueues c).filter fun j => j != i && (m.queue j).op.isSome).map fun j => (j, (m.queue j).head)

/-- Step 2 of R162, once the operations that the training context had running have completed and no other context's operation
runs on the interlude's partitions. -/
def Mod.ilStart (m : Mod) (e i : Nat) : Mod :=
  match m.ilOf e i with
  | some il =>
    let left := il.before.filter fun o => (m.queue o.1).op.isSome && (m.queue o.1).head == o.2
    if !il.started && !il.ended && left.isEmpty && !m.runsOn il.parts (· != e) then
      let m := m.modIl e i fun il => { il with before := [], started := true, since := m.time }
      let m := m.each (bitList 16 il.parts) fun m p => m.activate p e
      let m := (m.set F.CTX_STAT_in_interlude e 1).cnt (632 + 4 * e) 1
      (m.traceParts il.parts 0x0E il.train (il.queue % 16) 0xFFFF (2 * e)).interludeEnd il.flag
    else if left.length < il.before.length then m.modIl e i fun il => { il with before := left }
    else m
  | none => m

/-- Whether context `c` has an operation in flight. -/
def Mod.ctxBusy (m : Mod) (c : Nat) : Bool := (ctxQueues c).any fun i => (m.queue i).op.isSome

/-- Step 5 of R162: the interlude has ended and its context runs nothing, and is not being torn down (R383): the
`INTERLUDE` operation may complete. `in_interlude` stays set while another interlude of the context is in progress. -/
def Mod.ilFinish (m : Mod) (e i : Nat) : Mod :=
  match m.ilOf e i with
  | some il =>
    if il.ended && !il.closed && !m.ctxBusy e && m.ctxState e != 2 then
      let m := m.set F.CTX_STAT_in_interlude e (b2n ((m.ctx e).iludes.any (·.live)))
      let m := match il.expired with
        | some t => m.cnt (632 + 4 * e + 2) (m.time - t)
        | none => m
      let m := if il.started then m.traceParts il.parts 0x0E il.train (il.queue % 16) 0xFFFF (1 + 2 * e + b2n il.expired.isSome * 2 ^ 7) else m
      if (match (m.queue i).op with | some o => Rc.opcode o.rcd == 0x64 && IlRec.ctx o.rcd == e | none => false) then
        (m.modIl e i fun il => { il with closed := true }).modOp i fun o => { o with ready := true }
      else m.dropIl e i
    else m
  | none => m

/-- Every interlude of context `e` goes on as far as it can. -/
def Mod.ilSettle (m : Mod) (e : Nat) : Mod :=
  m.each ((m.ctx e).iludes.map (·.queue)) fun m i => (m.ilStart e i).ilFinish e i

/-- Issues an `INTERLUDE`. -/
def Mod.issueInterlude (m : Mod) (i : Nat) : Mod :=
  m.issue i 0x64 (ilCheck i) fun m r _ =>
    let e := IlRec.ctx r
    let m := m.modOp i fun o => { o with ready := false }
    let il : Interlude :=
      { train := qCtx i, queue := i, parts := m.qMask i &&& m.get F.CTX_CFG_part_mask e, flag := m.ctxFlag e (IlRec.flag r),
        target := IlRec.target r, budget := IlRec.budget r, before := m.flying (qCtx i) i }
    (m.setCtx e { m.ctx e with iludes := (m.ctx e).iludes ++ [il] }).ilSettle e

/-- The interlude of context `e` in progress whose budget runs out first. -/
def Mod.ilNext (m : Mod) (e : Nat) : Option Interlude :=
  ((m.ctx e).iludes.filter (·.live)).foldl (fun b il => match b with
    | some x => if il.since + 1000 * il.budget < x.since + 1000 * x.budget then some il else some x
    | none => some il) none

/-- INTERLUDE_BUDGET_EXPIRY. -/
def Mod.ilExpire (m : Mod) (e : Nat) : Mod :=
  match m.ilNext e with
  | some il =>
    ((m.modIl e il.queue fun il => { il with ended := true, expired := some m.time }).cnt (632 + 4 * e + 1) 1).ilFinish e il.queue
  | none => m

/-! ### Context switches (R159) -/

/-- Whether context `c` is eligible on partition `p`. -/
def Mod.eligible (m : Mod) (p c : Nat) : Bool :=
  m.ctxState c == 1 && (m.get F.CTX_CFG_part_mask c).testBit p
  && (!m.on F.CTX_CFG_interlude_only c || (m.lentParts c (fun _ => true)).testBit p)
  && (ctxQueues c).any (fun i => (m.qMask i).testBit p && (m.headReady i).isSome)

/-- The context that partition `p` runs next, if one is eligible. -/
def Mod.nextContext (m : Mod) (p : Nat) : Option Nat :=
  let el := (List.range 64).filter (m.eligible p)
  let top := (el.map fun c => m.get F.CTX_CFG_prio c).foldl max 0
  let el := el.filter fun c => m.get F.CTX_CFG_prio c == top
  let cur := (m.part p).active
  let after := (el.find? fun c => cur.any (· < c))
  let next := after.or el.head?
  match cur with
  | some c => if el.contains c && decide (m.time < (m.part p).since + 1000 * m.get F.CTX_CFG_slice_us c) then some c else next
  | none => next

/-- The shares on partition `p` of the operations that span further partitions have run (R160): they hold only the others. -/
def Mod.sharesRun (m : Mod) (p : Nat) : Mod :=
  m.each m.liveQueues fun m i => m.modOp i fun o =>
    if o.parts.testBit p && o.parts != 2 ^ p then { o with parts := o.parts - 2 ^ p } else o

/-- CONTEXT_SWITCH: an operation boundary on partition `p`, where the next context becomes active. Shares that still stand on it
have run; a share that is the last of its operation has not, since its operation would have completed (DESIGN CHOICE, log
entry 74). -/
def Mod.contextSwitch (m : Mod) (p : Nat) : Mod :=
  let go (m : Mod) : Mod := match m.nextContext p with
    | some c => m.activate p c
    | none => m
  if !m.partUp p || !m.partReady p then m
  else if m.runsOn (2 ^ p) (fun _ => true) then
    if (m.sharesRun p).runsOn (2 ^ p) (fun _ => true) then m else go (m.sharesRun p)
  else go m

/-! ### Queues (R146, R384) -/

/-- QUEUE_ENABLE: the write of `Q_CFG[i]` with `enable` 1. -/
def Mod.queueEnable (m : Mod) (i v : Nat) : Mod :=
  if m.qOn i then m.refuseQueue ST_CTX_STATE Blk.Q i
  else if m.qBusy i then
    if (m.get F.FLT_PEND_Q_queue (i / 64)).testBit (i % 64) then m
    else
      (m.setRegAt (R.Q_CFG.base + 64 * i) 0 (v &&& R.Q_CFG.rw &&& (2 ^ 64 - 2))).setBit F.FLT_PEND_Q_queue (i / 64) (i % 64) true
  else m.queueEnableNow i v

/-- QUEUE_DISABLE: the write of `Q_CFG[i]` that clears `enable`. Unissued records stay in the ring; what was fetched ahead is
dropped. -/
def Mod.queueDisable (m : Mod) (i : Nat) : Mod :=
  if (m.get F.FLT_PEND_Q_queue (i / 64)).testBit (i % 64) then
    (m.setBit F.FLT_PEND_Q_queue (i / 64) (i % 64) false).log
      { st := ST_ENABLE_CANCELLED, cls := .event, block := Blk.Q, ctx := qCtx i, queue := i }
  else if m.qOn i then
    let q := m.queue i
    (m.set F.Q_CFG_enable i 0).setQueue i
      { q with fetched := [], checked := false, blocked := none, stalled := false, halted := none }
  else m

/-! ### Doorbells (R133, R140, R145) -/

/-- A write to a doorbell page: `f` acts on its queue. A page of an enabled VF that is bound to no context in use drops it
and records it (R133, R431); before the module is ready it is ignored (R418). -/
def Mod.atDoor (m : Mod) (d : Door) (f : Mod → Nat → Mod) : Mod :=
  if !m.on F.BOOT_STAT_ready then m
  else match d with
    | .pf i => f m i
    | .vf v page =>
      if m.pcie.vfEnable && decide (v.val < m.pcie.numVfs) then
        match (List.range 64).find? fun c => m.on F.CTX_CFG_vf_bound c && m.get F.CTX_CFG_vf c == v.val && m.ctxState c != 0 with
        | some c => f m (16 * c + page.val)
        | none => m.refuse ST_CTX_STATE Blk.Q
      else m

/-- DB_TAIL_WRITE on queue `i`. -/
def Mod.dbTail (m : Mod) (i : Nat) (v : W32) : Mod :=
  let m := m.cnt 622 1
  let q := m.queue i
  if !m.qOn i then m.refuseQueue ST_CTX_STATE Blk.Q i
  else if m.qSize i < (v - q.head).toNat || (v - q.head).toNat < q.waiting then m.halt i ST_BAD_DOORBELL
  else
    let m := m.setQueue i { q with tail := v }
    let m := m.each ((List.range (v - q.tail).toNat).map fun j => (q.tail + BitVec.ofNat 32 j).toNat) fun m n => m.registerRec i n
    m.headArrive i

/-- DB_RESUME on queue `i`: skip or retry of the halted record. A halt by a refused doorbell write halted no record: either
action ends it. -/
def Mod.dbResume (m : Mod) (i : Nat) (retry : Bool) : Mod :=
  let q := m.queue i
  match q.halted with
  | none => m
  | some st =>
    if !m.qOn i then m
    else
      let m := m.setQueue i { q with halted := none, stalled := false }
      if q.op.isSome then m
      else if retry then (m.setQueue i { m.queue i with fetched := [], checked := false, blocked := none }).headArrive i
      else if st = ST_BAD_DOORBELL || q.waiting = 0 then m.headArrive i
      else m.headPass i

/-- A write of `DB_FLAG_VAL` (`add` false) or `DB_FLAG_ADD` on the page of queue `i`. -/
def Mod.dbFlag (m : Mod) (i : Nat) (add : Bool) (v : W64) : Mod :=
  let c := qCtx i
  let x := (m.queue i).flagSel.toNat
  if !m.flagIn c x then m.refuseQueue ST_BAD_FLAG Blk.FLG i
  else if add then m.flagAdd (m.ctxFlag c x) v else m.flagSet (m.ctxFlag c x) v

/-! ### Descriptors from PF0 (R157, R158) -/

/-- The staged descriptor. -/
def Mod.stagedDesc (m : Mod) : W512 :=
  BitVec.ofNat 512 (((List.range 8).map fun k => m.get F.TDT_STAGE_data k * 2 ^ (64 * k)).sum)

/-- TDT_CMD: stores the staged entry at global entry `e`. -/
def Mod.tdtCmd (m : Mod) (e : Nat) : Mod :=
  if 122880 ≤ e then m.set F.TDT_CMD_STAT_status 0 ST_BAD_DESC
  else
    let x := m.descStore (m.ownerOf e) e m.stagedDesc
    x.2.set F.TDT_CMD_STAT_status 0 x.1

/-! ### Maintenance operations (R193-R195) -/

/- Operands of `DESC_WRITE` and `WATCH_WRITE`. -/
namespace MtRec
def region (r : W1024) : Nat := Rc.pf r 0 0 10
def off (r : W1024) : Nat := Rc.pf r 0 10 40
def dwFirst (r : W1024) : Nat := Rc.pf r 1 0 17
def dwCount (r : W1024) : Nat := Rc.pf r 1 17 13
def wwFirst (r : W1024) : Nat := Rc.pf r 1 0 8
def wwCount (r : W1024) : Nat := Rc.pf r 1 8 9
end MtRec

/-- The region check of a maintenance operation that reads `n` bytes. -/
def Mod.mtRegion (m : Mod) (c : Nat) (r : W1024) (n align : Nat) : Status :=
  match m.rawRegion c (MtRec.region r) (MtRec.off r) n align .rd with
  | .error e => e
  | .ok g => if Rgn.hostwin g then ST_BAD_REGION else ST_OK

def dwCheck (i : Nat) (m : Mod) (r : W1024) (_caps : List Cap) : Status :=
  let c := qCtx i
  if m.get F.CTX_QUOTA_tdt_count c < MtRec.dwFirst r + MtRec.dwCount r then ST_BAD_DESC
  else
    let st := m.mtRegion c r (64 * MtRec.dwCount r) 64
    if st ≠ ST_OK then st else if MtRec.dwCount r = 0 || 4096 < MtRec.dwCount r then ST_BAD_ATTR else ST_OK

/-- Ends the operation of queue `i` with a status found while it ran. -/
def Mod.opStatus (m : Mod) (i : Nat) (st : Status) : Mod := m.modOp i fun o => { o with status := st }

/-- Stores entries one after another until one fails; `k` bounds them. They are stored at issue: an operation that does not
wait for the `DESC_WRITE`, which may see old or new entries (R22), always sees the new ones (DESIGN CHOICE, log entry 39). -/
def Mod.dwGo (m : Mod) (fine : Bool) (i c pa j : Nat) : Nat → Mod
  | 0 => m
  | k + 1 =>
    let m := m.reach fine .rd pa 64
    if m.poisonedIn pa 64 then m.opStatus i ST_MEM_UNCORR
    else
      let (st, m) := m.descStore (some c) (m.entryOf c j) (BitVec.ofNat 512 (m.rdNat pa 64))
      if st ≠ ST_OK then m.opStatus i st else m.dwGo fine i c (pa + 64) (j + 1) k

/-- Issues a `DESC_WRITE`. -/
def Mod.issueDescWrite (m : Mod) (i : Nat) : Mod :=
  m.issue i 0x70 (dwCheck i) fun m r _ =>
    let c := qCtx i
    let g := m.region c (MtRec.region r)
    m.dwGo (Rgn.fine g) i c (Rgn.base g + MtRec.off r) (MtRec.dwFirst r) (MtRec.dwCount r)

/- Operands of `STREAM_WRITE`. -/
namespace SwRec
def entry (r : W1024) : Nat := Rc.pf r 0 0 12
def valid (r : W1024) : Bool := (Rc.p r 0).testBit 12
def id (r : W1024) : Nat := Rc.pf r 1 0 32
def seed (r : W1024) : Nat := Rc.p r 2 + Rc.p r 3 * 2 ^ 64
end SwRec

/-- Whether another valid entry than `i` holds the pair (`seed`, `id`), of an owner for which `who` holds. -/
def Mod.streamHeld (m : Mod) (i seed id : Nat) (who : Nat → Bool) : Bool :=
  m.streams.any fun e => e.1 != i && St.valid e.2 && St.seed e.2 == seed && St.id e.2 == id && who (St.owner e.2)

def swCheck (i : Nat) (m : Mod) (r : W1024) (_caps : List Cap) : Status :=
  let c := qCtx i
  let old := Tab.get 0 m.streams (SwRec.entry r)
  if St.valid old && St.owner old ≠ c then ST_ACCESS_DENIED
  else if SwRec.valid r && m.streamHeld (SwRec.entry r) (SwRec.seed r) (SwRec.id r) (· == c) then ST_STREAM_DUP
  else ST_OK

/-- Recomputes the `shared` marks (R302): an entry is shared while another context's valid entry holds its pair. -/
def Mod.markShared (m : Mod) : Mod :=
  let mark (t : Tab W256) (e : Nat × W256) : Tab W256 :=
    let s := St.valid e.2 && m.streamHeld e.1 (St.seed e.2) (St.id e.2) (· != St.owner e.2)
    Tab.set 0 t e.1 (BitVec.ofNat 256 (setBits e.2.toNat 161 1 (b2n s)))
  { m with streams := m.streams.foldl mark m.streams }

/-- Issues a `STREAM_WRITE`; its entry is stored when it completes. -/
def Mod.issueStreamWrite (m : Mod) (i : Nat) : Mod := m.issue i 0x71 (swCheck i) fun m _ _ => m

/-- The stream entry of a completed `STREAM_WRITE` of queue `i` (R194, R302). -/
def Mod.streamStore (m : Mod) (i : Nat) (r : W1024) : Mod :=
  let c := qCtx i
  let k := SwRec.entry r
  let old := Tab.get 0 m.streams k
  let w : W256 := BitVec.ofNat 256 (SwRec.seed r + SwRec.id r * 2 ^ 128 + b2n (SwRec.valid r) * 2 ^ 160
    + (if SwRec.valid r then c else St.owner old) * 2 ^ 162)
  let m := ({ m with streams := Tab.set 0 m.streams k w }).markShared
  let m := m.setCtx c { m.ctx c with wroteStreams := insertNew k (m.ctx c).wroteStreams }
  if SwRec.valid r && m.streamHeld k (SwRec.seed r) (SwRec.id r) (· != c) then
    m.log { st := ST_STREAM_SHARED, cls := .event, block := Blk.UPD, ctx := c, queue := i, d0 := k }
  else m

/- Operands of `GROUP_WRITE`. -/
namespace GwRec
def group (r : W1024) : Nat := Rc.pf r 0 0 8
def mask (r : W1024) : Nat := Rc.pf r 0 8 7
end GwRec

/-- The pending entry as `GROUP_WRITE` would leave it (R193); owner unchanged unless `valid` is set to 1. -/
def gwEntry (c : Nat) (r : W1024) (old : W256) : W256 :=
  let put (x b lo len v : Nat) : Nat := if (GwRec.mask r).testBit b then setBits x lo len v else x
  let x := old.toNat
  let x := put x 0 0 32 (Rc.pf r 0 32 32)
  let x := put x 1 32 32 (Rc.pf r 1 0 32)
  let x := put x 2 64 32 (Rc.pf r 1 32 32)
  let x := put x 3 96 32 (Rc.pf r 2 0 32)
  let x := put x 4 128 32 (Rc.pf r 2 32 32)
  let x := put x 5 160 32 (Rc.pf r 3 0 32)
  let x := put x 6 192 4 (Rc.pf r 0 15 4)
  let x := put x 6 203 1 (Rc.pf r 0 19 1)
  let x := if (GwRec.mask r).testBit 6 && (Rc.p r 0).testBit 18 then setBits x 196 6 c else x
  BitVec.ofNat 256 (setBits x 202 1 1)

/-- R194's limits on a group's values. -/
def groupOk (g : W256) : Bool :=
  let nonneg (v : Nat) : Bool := decide (v < 0x7F800000) || v == 0x80000000
  let below1 (v : Nat) : Bool := decide (v < 0x3F800000) || v == 0x80000000
  nonneg (Gr.eta g) && nonneg (Gr.decay g) && below1 (Gr.beta1 g) && below1 (Gr.beta2 g) && posNormal (Gr.eps g)
  && decide (1 ≤ Gr.clip g) && decide (Gr.clip g ≤ 0x7F800000) && Gr.master g != 3

def gwCheck (i : Nat) (m : Mod) (r : W1024) (_caps : List Cap) : Status :=
  let c := qCtx i
  let old := Tab.get 0 m.groupsPend (GwRec.group r)
  if Gr.valid old && Gr.owner old ≠ c then ST_ACCESS_DENIED
  else if !groupOk (gwEntry c r old) then ST_BAD_ATTR
  else ST_OK

/-- Issues a `GROUP_WRITE`; its entry is stored when it completes. -/
def Mod.issueGroupWrite (m : Mod) (i : Nat) : Mod := m.issue i 0x72 (gwCheck i) fun m _ _ => m

/-- The pending group entry of a completed `GROUP_WRITE` of queue `i` (R193). -/
def Mod.groupStore (m : Mod) (i : Nat) (r : W1024) : Mod :=
  let c := qCtx i
  let k := GwRec.group r
  let m := { m with groupsPend := Tab.set 0 m.groupsPend k (gwEntry c r (Tab.get 0 m.groupsPend k)) }
  m.setCtx c { m.ctx c with wroteGroups := insertNew k (m.ctx c).wroteGroups }

def wwCheck (i : Nat) (m : Mod) (r : W1024) (_caps : List Cap) : Status :=
  let st := m.mtRegion (qCtx i) r (32 * MtRec.wwCount r) 32
  if st ≠ ST_OK then st
  else if MtRec.wwCount r = 0 || 256 < MtRec.wwCount r || 256 < MtRec.wwFirst r + MtRec.wwCount r then ST_BAD_ATTR
  else ST_OK

/-- Stores a watch entry written by context `c`, its owner the context that sets `valid` (R195). -/
def Mod.watchPut (m : Mod) (c j : Nat) (e : W256) : Mod :=
  let own := if Wt.valid e then c else Wt.owner (m.watchEntry j)
  { m with watch := Tab.set 0 m.watch j (BitVec.ofNat 256 (setBits e.toNat 18 6 own)) }

/-- Stores watch entries one after another until one fails; `k` bounds them. They too are stored at issue (R22; DESIGN CHOICE,
log entry 39). -/
def Mod.wwGo (m : Mod) (fine : Bool) (i c pa j : Nat) : Nat → Mod
  | 0 => m
  | k + 1 =>
    let m := m.reach fine .rd pa 32
    let old := m.watchEntry j
    let e : W256 := BitVec.ofNat 256 (m.rdNat pa 32)
    if m.poisonedIn pa 32 then m.opStatus i ST_MEM_UNCORR
    else if Wt.valid old && Wt.owner old ≠ c then m.opStatus i ST_ACCESS_DENIED
    else
      let st := m.watchCheck c e
      if st ≠ ST_OK then m.opStatus i st else (m.watchPut c j e).wwGo fine i c (pa + 32) (j + 1) k

/-- Issues a `WATCH_WRITE`. -/
def Mod.issueWatchWrite (m : Mod) (i : Nat) : Mod :=
  m.issue i 0x73 (wwCheck i) fun m r _ =>
    let c := qCtx i
    let g := m.region c (MtRec.region r)
    m.wwGo (Rgn.fine g) i c (Rgn.base g + MtRec.off r) (MtRec.wwFirst r) (MtRec.wwCount r)

/-! ### Teardown (R382, R383) -/

/-- Discards packets of context `c` that wait at link egress and have not begun to be sent. -/
def Mod.egressDrop (m : Mod) (c : Nat) : Mod :=
  let mine (p : Packet) : Bool := p.hdr.ctxValid && p.hdr.ctx.toNat == c
  let m := m.each (List.range 8) fun m n =>
    let p := m.port n
    let begun (f : TxFlit) : Bool := f.idx != 0 && !(p.waiting.any fun g => g.vc == f.vc && g.idx == 0 && g.pkt == f.pkt)
    m.setPort n { p with waiting := p.waiting.filter fun f => !mine f.pkt || begun f }
  { m with early := m.early.filter fun p => !mine p, fab := { m.fab with loop := m.fab.loop.filter fun p => !mine p } }

/-- Ends the interludes that context `c` is part of (R383). -/
def Mod.ilTeardown (m : Mod) (c : Nat) : Mod :=
  m.each (m.ctxs.map (·.1)) fun m e =>
    if (m.ctx e).iludes.any fun il => e == c || il.train == c then
      m.setCtx e { m.ctx e with iludes := (m.ctx e).iludes.map fun il =>
        if e == c || il.train == c then { il with ended := true } else il }
    else m

/-- CTX_TEARDOWN (Table 12.11 steps 1 and 2). -/
def Mod.ctxTeardown (m : Mod) (c : Nat) : Mod :=
  match m.ctxState c with
  | 0 => m.refuseCtx ST_CTX_STATE Blk.CTX c
  | 1 =>
    let m := m.set F.CTX_STAT_state c 2
    let m := m.each (ctxQueues c) fun m i => (m.stopOp i).queuePending i
    let m := (m.genAbandon c ST_CAST_ABANDONED).restoreEnd c ST_CAST_ABANDONED
    let m := m.setCtx c { m.ctx c with pfRun := [], castLoaded := false, castList := [], vote := none, normRed := none, castRed := none }
    let m := { m with pcie := { m.pcie with reqs := m.pcie.reqs.filter fun q => !(match q.list with | some l => l.1 == c | none => false) } }
    (((m.set F.CAST_STAT_state c 0).egressDrop c).ilTeardown c)
  | _ =>
    if (m.get F.FLT_PEND_CTX_ctx).testBit c then
      (m.setBit F.FLT_PEND_CTX_ctx 0 c false).log { st := ST_ENABLE_CANCELLED, cls := .event, block := Blk.CTX, ctx := c }
    else m

/-- Clears `valid` on the stream, group and watch entries of context `c` (R195). -/
def Mod.entriesClear (m : Mod) (c : Nat) : Mod :=
  let g (t : Tab W256) : Tab W256 := t.foldl (fun u e =>
    if Gr.owner e.2 = c && Gr.valid e.2 then Tab.set 0 u e.1 (BitVec.ofNat 256 (setBits e.2.toNat 195 1 0)) else u) t
  let s (t : Tab W256) : Tab W256 := t.foldl (fun u e =>
    if St.owner e.2 = c && St.valid e.2 then Tab.set 0 u e.1 (BitVec.ofNat 256 (setBits e.2.toNat 160 1 0)) else u) t
  let w (t : Tab W256) : Tab W256 := t.foldl (fun u e =>
    if Wt.owner e.2 = c && Wt.valid e.2 then Tab.set 0 u e.1 (BitVec.ofNat 256 (setBits e.2.toNat 17 1 0)) else u) t
  ({ m with groupsPend := g m.groupsPend, groupsLatch := g m.groupsLatch, streams := s m.streams,
            streamsLatch := s m.streamsLatch, watch := w m.watch }).markShared

/-- Step 5 of Table 12.11, and a pending enable (R384). -/
def Mod.ctxOff (m : Mod) (c : Nat) : Mod :=
  let m := m.set F.CTX_STAT_state c 0
  let m := m.each (ctxQueues c) fun m i =>
    -- an enable still pending is cancelled (R384)
    let m := if (m.get F.FLT_PEND_Q_queue (i / 64)).testBit (i % 64) then m.queueDisable i else m
    (m.set F.Q_CFG_enable i 0).setQueue i
      { tail := (m.queue i).tail, head := (m.queue i).head, flagSel := (m.queue i).flagSel, status := (m.queue i).status }
  let m := (m.dropSigs fun s => qCtx s.queue != c).entriesClear c
  let m := m.each (List.range 16) fun m p =>
    if (m.part p).active = some c then m.setPart p { m.part p with active := none } else m
  let m := ((m.each (m.ctxs.map (·.1)) Mod.ilSettle).enginesIdle c).sidesGate
  if (m.get F.FLT_PEND_CTX_ctx).testBit c then (m.setBit F.FLT_PEND_CTX_ctx 0 c false).ctxEnableNow c else m

/-- TEARDOWN_QUIESCED. -/
def Mod.teardownQuiesced (m : Mod) (c : Nat) : Mod := if m.ctxState c = 2 then m.ctxOff c else m

/-- TEARDOWN_TIMEOUT: partitions in `silent` have not acknowledged and are reset. -/
def Mod.teardownTimeout (m : Mod) (c : Nat) (silent : Nat) : Mod :=
  if m.ctxState c = 2 then
    let m := m.log { st := ST_TEARDOWN_TIMEOUT, cls := .contained, block := Blk.CTX, ctx := c }
    (m.each ((bitList 16 silent).filter fun p => m.get F.PART_STAT_state p == 2) fun m p =>
      m.faultReset p ST_TEARDOWN_TIMEOUT).ctxOff c
  else m

/-- GEN_WR: a write of `LNK_CTX_GEN[c].gen_wr` (R267). -/
def Mod.genWr (m : Mod) (c v : Nat) : Mod :=
  if m.ctxState c = 0 then m.set F.CTX_STAT_gen c v else m.refuseCtx ST_CTX_STATE Blk.LNK c

/-! ### The end of an operation (OP_COMPLETE, R142) -/

/-- The interlude of the `INTERLUDE` operation of queue `i` leaves its context when the operation completes (R162). -/
def Mod.interludeClear (m : Mod) (i : Nat) : Mod :=
  m.each (m.ctxs.map (·.1)) fun m e => if (m.ctx e).iludes.any (fun il => il.closed && il.queue == i) then m.dropIl e i else m

/-- What the completion of an operation does for its opcode alone. -/
def Mod.opEnd (m : Mod) (i : Nat) (r : W1024) : Mod :=
  match Rc.opcode r with
  | 0x64 => m.interludeClear i
  | 0x71 => m.streamStore i r
  | 0x72 => m.groupStore i r
  | _ => m

/-- The operation of queue `i`, when every share of it has finished, hands over its statistics (R107) and completes, unless they
call for a re-run (R114), for which it goes on. -/
def Mod.opComplete (m : Mod) (i : Nat) : Mod :=
  match (m.queue i).op with
  | some o =>
    if o.ready && o.fallback.isEmpty && o.hostPhase == 0 then
      let m := m.mergeRun i
      match (m.queue i).op with
      | some o =>
        if !o.fallback.isEmpty then m
        else
          (m.opEnd i o.rcd).complete i
      | none => m
    else m
  | none => m

end Sys2Proof.Machine
end

