-- ==== Sys2Proof/Machine/Hbm.lean ====
section
/-! DEFINITION. Module memory from outside the operations: the zone map (R198, R201), BAR4 (R230-R232), memory sides (R203)
and scrubbing (R223). -/

namespace Sys2Proof.Machine

/-! ### The zone map -/

/-- A staged zone, as `MEM_ZONE[z]` holds it: kind + 4 * place. -/
def Mod.stagedZone (m : Mod) (z : Nat) : Nat := m.get F.MEM_ZONE_kind z + 4 * m.get F.MEM_ZONE_place z

/-- Whether a staged zone's place is legal for its kind (R201). -/
def zonePlaceOk (x : Nat) : Bool :=
  match x % 4 with | 0 => x / 4 == 0 | 1 => decide (x / 4 < 4) | 2 => true | _ => false

/-- Whether a map gives every stack exactly 64 GiB (R198). -/
def zoneMapOk (t : List Nat) : Bool :=
  (List.range 16).all fun s => (t.map fun x => zoneShare (x % 4) (x / 4) s).sum == 2 ^ 36

/-- ZONE_COMMIT: a write of `MEM_ZONE_CTL.commit`. -/
def Mod.zoneCommit (m : Mod) : Mod :=
  let t := (List.range 64).map m.stagedZone
  if (List.range 64).any (fun c => m.ctxState c != 0) then m.set F.MEM_ZONE_CTL_status 0 ST_CTX_STATE
  else if !(t.all zonePlaceOk && zoneMapOk t) then m.set F.MEM_ZONE_CTL_status 0 ST_BAD_REGION
  else { (m.set F.MEM_ZONE_CTL_status 0 ST_OK) with
         zones := ((List.range 64).zip t).foldl (fun u e => Tab.set 0 u e.1 e.2) [] }

/-! ### BAR4 -/

/-- Bytes of BAR4 (R430). -/
def Mod.bar4Size (m : Mod) : Nat := 2 ^ m.pcie.bar4Log2

/-- The physical address at BAR4 offset `x` (R230). -/
def Mod.bar4Addr (m : Mod) (x : Nat) : Nat := m.get F.MEM_BAR4_WIN_base * 2 ^ 20 / m.bar4Size * m.bar4Size + x

/-- Whether BAR4 reaches stack `s`; none answers in MS3 (R203, R459). -/
def Mod.bar4Up (m : Mod) (s : Nat) : Bool := m.partUp s && decide (m.get F.PWR_MS_CTL_state < 3)

/-- Records `ST_PART_DOWN` for each stack out of service that holds an accessed byte (R232). -/
def Mod.bar4Down (m : Mod) (pas : List Nat) : Mod :=
  m.each ((pas.map m.stackOf).dedup.filter fun s => !m.bar4Up s) fun m s =>
    m.log { st := ST_PART_DOWN, cls := .event, block := Blk.MEM, part := s }

/-- Whether an access to BAR4 reaches the module. -/
def Mod.bar4Here (m : Mod) (off n : Nat) : Bool := m.powered && m.pcie.link && decide (off + n ≤ m.bar4Size)

/-- What a read of a byte returns: all ones from a stack out of service, a free byte from a poisoned word. -/
def Mod.bar4Byte (m : Mod) (k pa : Nat) : Byte :=
  if !m.bar4Up (m.stackOf pa) then 0xFF else if m.poisoned pa then Config.freeByte (m.freeN + k) else m.rdByte pa

/-- BAR4_READ. In recovery mode BAR4 maps the staging SRAM (R427). -/
def Mod.bar4Read (m : Mod) (off n : Nat) (errs : List MemErr) : Mod :=
  if !m.bar4Here off n then m
  else if m.inRecovery then m.emit (.completion (m.stagingRead off n) false)
  else
    let m := m.meetErrors none 0 errs
    let pa := m.bar4Addr off
    let pas := (List.range n).map (pa + ·)
    let m := (m.bar4Down pas).reach false .rd pa n
    let data := (List.range n).map fun j => m.bar4Byte j (pa + j)
    let bad := pas.any fun pa => m.bar4Up (m.stackOf pa) && m.poisoned pa
    let m := { m with freeN := m.freeN + (if bad then n else 0) }
    ((m.cnt 618 n).cnt 617 n).emit (.completion data bad)

/-- BAR4_WRITE: bytes with their enables; bytes of a stack out of service are dropped. -/
def Mod.bar4Write (m : Mod) (off : Nat) (l : List (Option Byte)) : Mod :=
  let bytesFrom (base : Nat) : List (Nat × Byte) :=
    ((List.range l.length).zip l).filterMap fun e => e.2.map fun b => (base + e.1, b)
  if !m.bar4Here off l.length then m
  else if m.inRecovery then m.stagingWrite (bytesFrom off)
  else
    let ws := bytesFrom (m.bar4Addr off)
    let m := m.bar4Down (ws.map (·.1))
    let up := ws.filter fun w => m.bar4Up (m.stackOf w.1)
    ((m.cnt 619 ws.length).cnt 616 ws.length).wrOuts (fun _ => false) up []

/-- What an AtomicOp of `n` bytes leaves, from the old value. -/
def atomicOp (kind n old a b : Nat) : Nat :=
  match kind with
  | 0 => (old + a) % 2 ^ (8 * n)
  | 1 => a % 2 ^ (8 * n)
  | _ => if old = a % 2 ^ (8 * n) then b % 2 ^ (8 * n) else old

/-- BAR4_ATOMICOP: `FetchAdd` (0), `Swap` (1), `CAS` (2) of 4 or 8 bytes; `a` the addend, the new value or the compare value, `b`
the swap value (R231); a poisoned line completes with Completer Abort (R216), a misaligned operand with Unsupported Request.
Accesses of BAR4 are in `BURST` mode (DESIGN CHOICE, log entry 78: R204 names none for them). -/
def Mod.bar4Atomic (m : Mod) (kind : Nat) (wide : Bool) (off a b : Nat) : Mod :=
  let n := if wide then 8 else 4
  let pa := m.bar4Addr off
  if !m.bar4Here off n then m
  else if off % n ≠ 0 || 2 < kind then m.emit .unsupportedRequest
  else if m.inRecovery then
    let old := leNat (m.stagingRead off n)
    (m.stagingWrite (atAddr off (leBytes n (atomicOp kind n old a b)))).emit (.completion (leBytes n old) false)
  else if !m.bar4Up (m.stackOf pa) then (m.bar4Down [pa]).emit (.completion (List.replicate n 0xFF) false)
  else if m.poisonedIn (pa / 128 * 128) 128 then m.emit .completerAbort
  else
    let old := m.rdNat pa n
    let m := (m.wrList (atAddr pa (leBytes n (atomicOp kind n old a b)))).atomic false pa n
    (((m.cnt 619 n).cnt 618 n).cnt 617 n).emit (.completion (leBytes n old) false)

/-- BAR4_RESIZE: through the Resizable BAR capability, 256 MiB to 1 TiB (R430); other sizes are not offered, and in recovery
mode none is (R427). -/
def Mod.bar4Resize (m : Mod) (k : Nat) : Mod :=
  if 28 ≤ k && k ≤ 40 && m.powered && m.pcie.link && !m.inRecovery then { m with pcie := { m.pcie with bar4Log2 := k } } else m

/-! ### Memory sides (R203) -/

/-- MEMORY_SIDE_WAKE: an access has found the memory side gated, and it is powered up. -/
def Mod.sideWake (m : Mod) (p : Nat) : Mod :=
  if m.get F.PWR_MS_CTL_state < 2 then m.set F.MEM_STACK_STAT_gated p 0 else m

/-! ### Scrubbing (R223) -/

/-- SCRUB_LATE. -/
def Mod.scrubLate (m : Mod) (p : Nat) : Mod :=
  (m.set F.MEM_SCRUB_STAT_late p 1).log { st := ST_SCRUB_LATE, cls := .event, block := Blk.MEM, part := p }

/-- PATROL_SCRUB_READ: the next word of stack `p`, in ascending stack-local address, with `bits` wrong bits; `late` tells
whether a pass that ends with it is more than 10 percent late. -/
def Mod.patrolScrub (m : Mod) (p bits : Nat) (late : Bool) : Mod :=
  let x := m.part p
  if !m.on F.MEM_SCRUB_CFG_enable || !m.partUp p || x.selfRefresh || m.on F.MEM_STACK_STAT_gated p then m
  else
    let w := x.scrubPos
    let next := (w + 1) % 2 ^ 33
    let m := (m.setPart p { x with scrubPos := next }).cnt (128 + 8 * p + 2) 8
    let m := m.set F.MEM_SCRUB_STAT_position p (next * 8 / 4096)
    let m := if next = 0 then
        let m := m.count F.MEM_SCRUB_STAT_passes p 1
        if late then m.scrubLate p else m
      else m
    m.wordError 1 (p * 2 ^ 33 + w) bits

/-- SLICE_SCRUB: slice `p` scrubs its lines, of which it meets errors. -/
def Mod.sliceScrub (m : Mod) (p : Nat) (errs : List MemErr) : Mod :=
  if !m.partUp p || m.on F.MEM_STACK_STAT_gated p then m
  else errs.foldl (fun m e => match e with
    | .slice w b => if w / 2 ^ 33 = p then m.sliceError 1 w b else m
    | _ => m) m

/-- STACK_PARITY_ERROR and STACK_PHY_LINK_LOSS (R222). -/
def Mod.stackLost (m : Mod) (p : Nat) : Mod :=
  if m.partUp p && !m.on F.MEM_STACK_STAT_stack_fault p then m.stackFault p else m

/-! ### Completions from the host (R228, R229) -/

/-- HOST_COMPLETION; a poisoned one counts as failed. -/
def Mod.hostCompletion (m : Mod) (tag : Nat) (l : List Byte) (poisoned : Bool) : Mod := m.hostTake tag l (!poisoned)

/-- HOST_REQUEST_FAILED: Unsupported Request, Completer Abort or completion timeout. -/
def Mod.hostFailed (m : Mod) (tag : Nat) : Mod := m.hostTake tag [] false

end Sys2Proof.Machine
end

