-- ==== Sys2Proof/Machine/Ports.lean ====
section
/-! DEFINITION. Ports: enabling, training, widths and fences (R237-R242, R265), flit receipt and retry (R244, R245),
keepalives and probes (R263, R268), the link-die watchdog (R372). -/

namespace Sys2Proof.Machine

/-! ### Widths (R240, R241) -/

/-- The lane groups, widest and lowest first, as lane masks. -/
def laneGroups : List Nat := [0xFF, 0x0F, 0xF0, 0x03, 0x0C, 0x30, 0xC0]

/-- Lanes that `min_width` demands. -/
def minLanes : Nat → Nat | 0 => 2 | 1 => 4 | _ => 8

/-- The group a port uses with the lanes in `failed` out of order: at most `most` lanes, at least `least`. -/
def pickGroup (failed least most : Nat) : Option Nat :=
  laneGroups.find? fun g => g &&& failed == 0 && decide (least ≤ laneCount g) && decide (laneCount g ≤ most)

/-- Replays the flits of port `n` from sequence number `a` on; they use no credit (R244). -/
def Mod.replayFrom (m : Mod) (n a : Nat) : Mod :=
  let l := (m.port n).replay.dropWhile (·.seq != a)
  (l.foldl (fun m f => m.sendData n f) m).bump F.LNK_ERR_replays n l.length

/-- Lanes of a running port fail; it moves to a narrower group and replays what is unacknowledged, or goes `DOWN` (R241). -/
def Mod.narrow (m : Mod) (n lanes : Nat) : Mod :=
  let cur := m.get F.LNK_STAT_lane_mask n
  let failed := m.get F.LNK_STAT_failed_mask n ||| lanes
  let m := m.set F.LNK_STAT_failed_mask n failed
  if cur &&& lanes = 0 then m
  else match pickGroup failed (minLanes (m.get F.LNK_CFG_min_width n)) (laneCount cur) with
    | none => m.portDown n
    | some g =>
      let m := m.set F.LNK_STAT_lane_mask n g
      let m := if m.usable n then m.set F.LNK_STAT_state n (if laneCount g = 8 then 2 else 3) else m
      m.replayFrom n (((m.port n).replay.head?.map (·.seq)).getD 0)

/-- LANE_FAIL: the lanes that lost locks and uncorrectable codewords fail (R240). How many of those the FEC has reported since the
last failure is free (log entry 15). -/
def Mod.laneFail (m : Mod) (n lanes : Nat) : Mod :=
  if !m.carries0 n then m
  else
    let (k, m) := m.draw
    (m.bump F.LNK_ERR_fec_uncorr n (Config.freeNat k)).narrow n lanes

/-- Whether lanes lie in one group narrower than the lanes `cur` in use (R245; log entry 47). -/
def oneGroup (cur lanes : Nat) : Bool :=
  lanes != 0 && laneGroups.any fun g => g &&& cur == g && g != cur && lanes &&& g == lanes

/-! ### Enabling and training (R238, R239, R242) -/

/-- Whether the axis of port `n` has more than one member (R238). -/
def Mod.axisLive (m : Mod) (n : Nat) : Bool := m.extent (n / 2) != 1

/-- Begins training port `n`. -/
def Mod.portTrain (m : Mod) (n : Nat) : Mod :=
  let p := m.port n
  let m := m.setPort n { p with peerMode := none, ident := none, txSeq := 0, rxNext := 0, fencing := false }
  let m := ((m.set F.LNK_STAT_no_peer n 0).set F.LNK_STAT_failed_mask n 0).set F.LNK_STAT_peer_valid n 0
  ((m.set F.LNK_STAT_lane_mask n 0).set F.LNK_STAT_mode n 0).set F.LNK_STAT_state n 1

/-- PORT_ENABLE. A port in service ignores it (R384). -/
def Mod.portEnable (m : Mod) (n : Nat) : Mod :=
  if m.on F.LNK_CFG_enable n then m.log { st := ST_CTX_STATE, cls := .refused, block := Blk.LNK, port := n }
  else
    let m := m.set F.LNK_CFG_enable n 1
    if m.axisLive n && !m.failed then m.portTrain n else m

/-- PORT_DISABLE: `DISABLED` at once. -/
def Mod.portDisable (m : Mod) (n : Nat) : Mod :=
  let was := m.get F.LNK_STAT_state n
  let m := m.set F.LNK_CFG_enable n 0
  if was = 0 then m else (m.portLeave n 0).set F.LNK_STAT_peer_valid n 0

/-- PORT_RETRAIN: `LNK_CTL[port].retrain`; the port's traffic is lost (Table 12.4) and a notice is sent. -/
def Mod.portRetrain (m : Mod) (n : Nat) : Mod :=
  if !m.on F.LNK_CFG_enable n || !m.axisLive n || m.failed then m
  else
    (((m.portClear n).portTrain n).portAvail n).discCheck.notice n

/-- AUTO_RETRAIN: 1 s after `DOWN`. The failed state and MS3 suppress it (R367, R461). -/
def Mod.autoRetrain (m : Mod) (n : Nat) : Mod :=
  if m.get F.LNK_STAT_state n = 5 && m.on F.LNK_CFG_auto_retrain n && m.on F.LNK_CFG_enable n && !m.failed
      && m.get F.PWR_MS_CTL_state != 3 then m.portTrain n
  else m

/-- PEER_DETECTED: both ends select the highest mode that both permit (Table 8.3 step 2). -/
def Mod.peerDetected (m : Mod) (n maxMode : Nat) : Mod :=
  if m.get F.LNK_STAT_state n ≠ 1 then m
  else
    let m := (m.setPort n { m.port n with peerMode := some maxMode }).emit (.capabilities n (m.get F.LNK_CFG_max_mode n))
    (m.set F.LNK_STAT_no_peer n 0).set F.LNK_STAT_mode n (Min.min maxMode (m.get F.LNK_CFG_max_mode n))

/-- The identity frame that port `n` sends (Table 8.3 step 5). -/
def Mod.frame (m : Mod) (n : Nat) : Identity :=
  { part := BitVec.ofNat 32 (m.get F.GEO_IDENT_part_code), ident := BitVec.ofNat 64 (m.get F.SEC_ID_identity),
    port := BitVec.ofNat 3 n, rootPrio := BitVec.ofNat 8 (m.get F.RTE_SHAPE_root_prio),
    phys := if m.fab.haveAddr then some (BitVec.ofNat 24 m.phys) else none }

/-- The module's own root key (R254). -/
def Mod.rootKey (m : Mod) : Nat × Nat := (m.get F.RTE_SHAPE_root_prio, m.get F.SEC_ID_identity)

/-- A port fenced for what its peer is: `FENCED` with full service of VC 0, and a record. -/
def Mod.portFenceFor (m : Mod) (n : Nat) (st : Status) : Mod :=
  (m.log { st := st, cls := .contained, block := Blk.LNK, port := n }).portLeave n 4

/-- TRAINING_COMPLETE: steps 3 to 6 of Table 8.3, with the lanes that failed and the peer's identity frame. Without a peer
the port stays in `TRAINING`; without a good group or an identity frame it goes `DOWN`. The module's further answer to a port
in service is in Machine/Routing. -/
def Mod.trained (m : Mod) (n failed : Nat) (ident : Option Identity) : Mod :=
  if m.get F.LNK_STAT_state n ≠ 1 then m
  else if (m.port n).peerMode.isNone then m.set F.LNK_STAT_no_peer n 1
  else
    let m := m.set F.LNK_STAT_failed_mask n failed
    let pick := pickGroup failed (minLanes (m.get F.LNK_CFG_min_width n)) 8
    let m := if pick.isSome then m.emit (.identity n (m.frame n)) else m
    match pick, ident with
    | some g, some id =>
      let m := (m.setPort n { m.port n with ident := some id }).set F.LNK_STAT_peer_port n id.port.toNat
      let m := (m.set F.LNK_STAT_peer_addr n ((id.phys.map (·.toNat)).getD 0)).set F.LNK_STAT_peer_valid n (b2n id.phys.isSome)
      let m := m.set F.LNK_STAT_lane_mask n g
      let m := { m.calNew with fab := { m.fab with silent := setBits m.fab.silent (n / 4) 1 0 } }
      if id.part.toNat ≠ m.get F.GEO_IDENT_part_code then m.portFenceFor n ST_PEER_UNSUPPORTED
      else if id.port.toNat ≠ (if n % 2 = 0 then n + 1 else n - 1) then m.portFenceFor n ST_LINK_MISWIRED
      else if m.on F.LNK_CFG_fence n then m.portLeave n 4
      else m.portServe n g
    | _, _ => m.portDown n

/-! ### Fences (R265) -/

/-- PORT_FENCE: `LNK_CFG[port].fence` set. -/
def Mod.portFence (m : Mod) (n : Nat) : Mod :=
  let m := m.set F.LNK_CFG_fence n 1
  if m.usable n then (m.setPort n { m.port n with fencing := true }).fenceCheck n else m

/-- PORT_UNFENCE: `LNK_CFG[port].fence` cleared. -/
def Mod.portUnfence (m : Mod) (n : Nat) : Mod :=
  let m := (m.set F.LNK_CFG_fence n 0).setPort n { m.port n with fencing := false }
  if m.get F.LNK_STAT_state n = 4 then m.portServe n (m.get F.LNK_STAT_lane_mask n) else m

/-! ### Flits (R244, R245, R247) -/

/-- DATA_FLIT_RECEIVE. -/
def Mod.dataFlit (m : Mod) (n : Nat) (l : List Byte) : Mod :=
  if !m.carries0 n then m
  else if m.stopped then m.setPort n { m.port n with nakWait := true }
  else if !Ft.good l then
    ((m.crcError n).setPort n { m.port n with nakWait := true }).sendNak n
  else if Ft.ftype l ≠ 0 then m
  else
    let m := m.takeReturns n l
    let p := m.port n
    let ahead := (Ft.seq l + 65536 - p.rxNext) % 65536
    if ahead = 0 then
      let k := vcKey (Ft.vc l) (Ft.cls l)
      let m := if Ft.vc l < 6 then m.cnt (288 + 32 * n + 4 * Ft.vc l + 1) 1 else m
      m.setPort n { p with rxNext := (p.rxNext + 1) % 65536, nakWait := false,
                           rxHeld := Tab.set 0 p.rxHeld k (Tab.get 0 p.rxHeld k + 1) }
    else if ahead < 32768 && !p.nakWait then (m.setPort n { p with nakWait := true }).sendNak n
    else m

/-- NAK_RECEIVE: replay from the named flit; the eighth in a row of one flit narrows the port where the lanes that
the FEC counts implicate are of one group, and takes it `DOWN` otherwise (R245). -/
def Mod.nakFlit (m : Mod) (n : Nat) (l : List Byte) (lanes : Nat) : Mod :=
  if !m.carries0 n then m
  else if !Ft.good l then m.crcError n
  else if Ft.ftype l ≠ 3 then m
  else
    let p := m.port n
    let a := Ft.ack l
    let count := if p.nakCount ≠ 0 && p.nakSeq = a then p.nakCount + 1 else 1
    let key := vcKey (Ft.crVc l) (Ft.crCls l)
    let p := { p with
      nakSeq := a, nakCount := count % 8,
      replay := if p.replay.any (·.seq == a) then p.replay.dropWhile (·.seq != a)
        else if p.txSeq = a then [] else p.replay,
      credits := Tab.set 0 p.credits key (Min.min (Tab.get 0 p.credits key + Ft.crCnt l) (vcBuffer (Ft.crVc l))) }
    let m := m.setPort n p
    if count = 8 then (if oneGroup (m.get F.LNK_STAT_lane_mask n) lanes then m.narrow n lanes else m.portDown n)
    else (m.replayFrom n a).drain n

/-- IDLE_FLIT_RECEIVE. -/
def Mod.idleFlit (m : Mod) (n : Nat) (l : List Byte) : Mod :=
  if !m.carries0 n then m else if !Ft.good l then m.crcError n else if Ft.ftype l ≠ 1 then m else m.takeReturns n l

/-! ### Keepalives and probes (R263, R268) -/

/-- KEEPALIVE_SEND. -/
def Mod.keepaliveSend (m : Mod) (n : Nat) : Mod :=
  if !m.carries0 n || m.fab.silent.testBit (n / 4) then m
  else
    let p := m.port n
    let k := p.keepalives + 1
    let probe := m.on F.LNK_PROBE_CFG_enable && k % 2 ^ m.get F.LNK_PROBE_CFG_interval_log2 == 0
    let m := m.setPort n { p with keepalives := k }
    let (h, m) := m.flitHead n 2 p.acked
    m.emit (.ctlFlit n (mkFlit (h + b2n probe * 2 ^ 52) (leBytes 8 m.time ++ leBytes 4 (m.phys + n * 2 ^ 24))))

/-- PROBE_RECORD: the record of a received probe (Table 8.12). -/
def Mod.probeRecord (m : Mod) (n : Nat) (l : List Byte) : Mod :=
  let p := m.port n
  let m := m.setPort n { p with probesRx := (p.probesRx + 1) % 2 ^ 32 }
  let sl := m.get F.LNK_PROBE_CFG_size_log2
  if sl = 0 || !m.on F.LNK_PROBE_CFG_enable then m
  else
    let lanes := laneCount (m.get F.LNK_STAT_lane_mask n)
    let w := if lanes = 8 then 2 else if lanes = 4 then 1 else 0
    m.ringWrite (m.get F.LNK_PROBE_CFG_base * 4096) (2 ^ sl) 32 F.LNK_PROBE_PTR_head F.LNK_PROBE_PTR_tail F.LNK_PROBE_PTR_lost 0
      (leBytes 8 m.time ++ leBytes 8 (leNat (slice l 8 8))
        ++ leBytes 4 (leNat (slice l 16 4) % 2 ^ 27 + n * 2 ^ 27)
        ++ leBytes 4 (m.phys + m.get F.LNK_STAT_mode n * 2 ^ 24 + w * 2 ^ 26) ++ leBytes 4 (p.probesRx + 1) ++ leBytes 4 0)

/-- KEEPALIVE_RECEIVE. The receive timer's restart shows in the absence of KEEPALIVE_TIMEOUT. -/
def Mod.keepaliveFlit (m : Mod) (n : Nat) (l : List Byte) : Mod :=
  if !m.carries0 n then m
  else if !Ft.good l then m.crcError n
  else if Ft.ftype l ≠ 2 then m
  else
    let m := m.takeReturns n l
    if Ft.probe l then m.probeRecord n l else m

/-- KEEPALIVE_TIMEOUT. -/
def Mod.keepaliveTimeout (m : Mod) (n : Nat) : Mod := if m.carries0 n then m.portDown n else m

/-- LINK_WATCHDOG_EXPIRY of link die `d` (R372): its keepalives stop and its ports are `DOWN`. -/
def Mod.linkWatchdog (m : Mod) (d : Nat) : Mod :=
  let m := { m with fab := { m.fab with silent := setBits m.fab.silent d 1 1 } }
  let m := m.log { st := ST_WATCHDOG, cls := .event, block := Blk.LNK, d0 := d }
  m.each (((List.range 4).map (4 * d + ·)).filter fun n => m.carries0 n) Mod.portDown

end Sys2Proof.Machine
end

