-- ==== Sys2Proof/Machine/Routing.lean ====
section
/-! DEFINITION. Discovery (R254, R262), link notices (R264, R284, R319, R331, R375), routing tables (R257-R260), and the
arrival of packets (R249, R251, R256, R261, R265, R266). -/

namespace Sys2Proof.Machine

/-! ### Discovery (R254) -/

/-- Whether root key `a` is lower than `b`. -/
def keyLt (a b : Nat × Nat) : Bool := decide (a.1 < b.1) || (a.1 == b.1 && decide (a.2 < b.2))

/-- The address that the link at port `n` implies for the peer of the module at `addr`. -/
def Mod.implied (m : Mod) (addr n : Nat) : Nat :=
  let a := n / 2
  let e := max (m.extent a) 1
  setCoord addr a ((coord addr a + if n % 2 = 0 then 1 else e - 1) % e)

/-- Tells the peer at port `n` the address that the link implies. -/
def Mod.tellPeer (m : Mod) (n : Nat) : Mod :=
  let addr := m.implied m.phys n
  let pl := Payload.address (BitVec.ofNat 24 addr)
  m.enqueue n 0 false { hdr := { m.header none 0x01 addr pl 0 0 with dst := BitVec.ofNat 24 addr, src := BitVec.ofNat 24 m.phys },
                        payload := pl }

/-- The module takes an address, its pin if it is pinned (step 5), and tells its peers (step 4). -/
def Mod.takeAddress (m : Mod) (addr : Nat) : Mod :=
  if m.fab.haveAddr then m
  else
    let m := m.set F.RTE_SELF_phys 0 (if m.on F.RTE_PIN_pinned then m.get F.RTE_PIN_pin_addr else addr)
    let m := { m with fab := { m.fab with haveAddr := true } }
    m.each ((List.range 8).filter m.carries0) Mod.tellPeer

/-- The root, or a module without a trained port, takes its pin or 0 (steps 3 and 7). -/
def Mod.takeRoot (m : Mod) : Mod := (m.takeAddress 0).discCheck

/-- The peer of port `n` tells this module that its address is `addr`: taken, agreed to, or in conflict (step 6). -/
def Mod.told (m : Mod) (n addr : Nat) : Mod :=
  let m := (m.set F.LNK_STAT_peer_addr n (m.implied addr n)).set F.LNK_STAT_peer_valid n 1
  let m := { m with fab := { m.fab with peers := (n, addr) :: m.fab.peers.filter (·.1 != n) } }
  let m := m.takeAddress addr
  if m.phys = addr then m.discCheck else m.portFenceFor n ST_FABRIC_INCONSISTENT

/-- Floods the lowest root key seen (step 2). -/
def Mod.floodKey (m : Mod) : Mod :=
  match m.fab.bestKey with
  | some k => m.flood 0x01 (.rootKey (BitVec.ofNat 8 k.1) (BitVec.ofNat 64 k.2))
  | none => m

/-- A root key arrives: the lowest is kept. Forwarding passes it on. -/
def Mod.keySeen (m : Mod) (k : Nat × Nat) : Mod :=
  match m.fab.bestKey with
  | some b => if keyLt k b then { m with fab := { m.fab with bestKey := some k } } else m
  | none => { m with fab := { m.fab with bestKey := some k } }

/-- A packet of discovery through port `n`. -/
def Mod.discovery (m : Mod) (n : Nat) (pl : Payload) : Mod :=
  match pl with
  | .address a => if m.carries0 n then m.told n a.toNat else m
  | .rootKey p i => m.keySeen (p.toNat, i.toNat)
  | _ => m

/-- TRAINING_COMPLETE: what a port that has come into service means for discovery. -/
def Mod.trainingDone (m : Mod) (n failed : Nat) (ident : Option Identity) : Mod :=
  let m := m.trained n failed ident
  if !m.usable n then m
  else
    let m := { m with fab := { m.fab with started := true } }
    let m := if m.fab.haveAddr then m.tellPeer n else if m.get F.RTE_SELF_disc_state = 1 then m.floodKey else m
    match ident.bind (·.phys) with
    | some a => m.told n (m.implied a.toNat (if n % 2 = 0 then n + 1 else n - 1))
    | none => m

/-- JOIN_WINDOW_EXPIRY: 10 ms after discovery has started without an address from a peer, the election begins. -/
def Mod.joinExpiry (m : Mod) : Mod :=
  if m.fab.haveAddr || m.get F.RTE_SELF_disc_state != 0 then m
  else if !m.fab.started then m.takeRoot
  else
    let own := m.rootKey
    let m := (m.set F.RTE_SELF_disc_state 0 1).keySeen own
    m.floodKey

/-- ELECTION_TIMEOUT: no lower key has arrived for 10 ms; the module whose key is the lowest is the root (step 3). -/
def Mod.electionEnd (m : Mod) : Mod :=
  if m.get F.RTE_SELF_disc_state = 1 && !m.fab.haveAddr && m.fab.bestKey == some m.rootKey then m.takeRoot else m

/-! ### Routing tables (R257-R260) -/

/-- The staged remap entries and the staged detour entries 0-223, by index. -/
def Mod.stagedRoutes (m : Mod) : Tab W64 × Tab W64 :=
  let pick (base n : Nat) : Tab W64 :=
    (m.regs.filter fun e => decide (base ≤ e.1) && decide (e.1 < base + 8 * n)).map fun e => ((e.1 - base) / 8, e.2)
  (pick R.RTE_REMAP.base 4096, pick R.RTE_DETOUR.base 224)

/-- Whether an address has every coordinate below its extent. -/
def Mod.inShape (m : Mod) (a : Nat) : Bool := (List.range 4).all fun k => decide (coord a k < m.extent k)

/-- R257 and R259. -/
def Mod.routesOk (m : Mod) (r d : Tab W64) : Bool :=
  let v := r.filter fun e => Rm.valid e.2
  decide ((v.map fun e => Rm.logical e.2).Nodup) && decide ((v.map fun e => Rm.physical e.2).Nodup)
  && v.all (fun e => m.inShape (Rm.logical e.2) && m.inShape (Rm.physical e.2))
  && d.all fun e => !Dt.valid e.2 || Dt.module e.2 || Dt.port e.2 % 2 == 0

/-- Makes a remap table and detour entries 0-223 active under an epoch; automatic entries stay. -/
def Mod.installRoutes (m : Mod) (r d : Tab W64) (epoch : Nat) : Mod :=
  let auto := m.fab.detour.filter fun e => decide (224 ≤ e.1)
  let m := { m with fab := { m.fab with remap := r, detour := d ++ auto } }
  (m.set F.RTE_EPOCH_epoch 0 epoch).setLogical

/-- A commit of the staged tables (`op` 1; `cast` for `op` 2). -/
def Mod.routeCommit (m : Mod) (cast : Bool) : Mod :=
  let (r, d) := m.stagedRoutes
  if !m.routesOk r d then m.set F.RTE_CMD_status 0 ST_BAD_ROUTE
  else
    let e := (m.get F.RTE_EPOCH_epoch + 1) % 65536
    let m := (m.installRoutes r d e).set F.RTE_CMD_status 0 ST_OK
    if cast then m.flood 0x03 (.routes (BitVec.ofNat 16 e) r d) else m

/-- ROUTE_LOAD_STAGING (`op` 0). -/
def Mod.routeLoad (m : Mod) : Mod :=
  let clear (base n : Nat) (t : Tab W64) : Tab W64 := t.clear base (base + 8 * n)
  let put (base : Nat) (t : Tab W64) (e : Nat × W64) : Tab W64 := Tab.set 0 t (base + 8 * e.1) e.2
  let t := clear R.RTE_DETOUR.base 224 (clear R.RTE_REMAP.base 4096 m.regs)
  let t := m.fab.remap.foldl (put R.RTE_REMAP.base) t
  let t := (m.fab.detour.filter fun e => decide (e.1 < 224)).foldl (put R.RTE_DETOUR.base) t
  ({ m with regs := t }).set F.RTE_CMD_status 0 ST_OK

/-- ROUTE_CLEAR_AUTO (`op` 3). -/
def Mod.routeClear (m : Mod) : Mod :=
  (m.each ((List.range 32).map (224 + ·)) fun m j => m.setAuto j 0).set F.RTE_CMD_status 0 ST_OK

/-- A table built from the entries of a broadcast that lie below `n`. -/
def tableOf (n : Nat) (l : List (Nat × W64)) : Tab W64 :=
  (l.filter fun e => decide (e.1 < n)).foldl (fun t e => Tab.set 0 t e.1 e.2) []

/-- A route-table broadcast arrives (R260); an invalid one is ignored. -/
def Mod.routesTake (m : Mod) (pl : Payload) : Mod :=
  match pl with
  | .routes e r d =>
    let r := tableOf 4096 r
    let d := tableOf 224 d
    let ahead := (e.toNat + 65536 - m.get F.RTE_EPOCH_epoch) % 65536
    if !m.routesOk r d then m
    else if 1 ≤ ahead && ahead ≤ 32767 then m.installRoutes r d e.toNat
    else if ahead = 0 && (r != m.fab.remap || d != m.fab.detour.filter (fun e => decide (e.1 < 224))) then
      m.log { st := ST_EPOCH_CONFLICT, cls := .event, block := Blk.RTE, d0 := e.toNat }
    else m
  | _ => m

/-! ### Paths over a link -/

/-- The far end of a link given by its plus end and even port. -/
def Mod.farEnd (m : Mod) (l : Nat × Nat) : Nat := m.implied l.1 l.2

/-- Whether a segment traverses a link. -/
def Mod.segHits (m : Mod) (l : Nat × Nat) (cur a b : Nat) : Bool :=
  let e := max (m.extent a) 1
  let x := coord cur a
  (List.range (bits b 0 6)).any fun j =>
    let y := if bit b 6 then (x + (j + 1) * (e - 1)) % e else (x + j) % e
    (setCoord cur a y, 2 * a) == l

/-- Whether the route from `cur` to `p`, both physical, traverses a link; it is formed with the detour entries alone, as
every module forms it. -/
def Mod.pathHits (m : Mod) (l : Nat × Nat) (p : Nat) : Nat → List Nat → Bool
  | _, [] => false
  | cur, k :: ks =>
    let a := m.axisAt k
    match m.segment cur a (coord p a) with
    | none => false
    | some b => m.segHits l cur a b || m.pathHits l p (setCoord cur a (coord p a)) ks

/-- The module with every own port taken as usable. -/
def Mod.portsUp (m : Mod) : Mod := m.each (List.range 8) fun m n => m.set F.LNK_STAT_state n 2

/-- Whether the route between two logical addresses traverses a link. -/
def Mod.crossesLink (m : Mod) (l : Nat × Nat) (s d : Nat) : Bool :=
  m.portsUp.pathHits l (m.remap d) (m.remap s) [0, 1, 2, 3]

/-- Whether some hop of the ring of a collective traverses a link (R284). -/
def Mod.ringCrosses (m : Mod) (l : Nat × Nat) (r : W1024) : Bool :=
  let n := max (CoRec.len r) 1
  let e := max (m.extent (CoRec.axis r)) 1
  let at_ (k : Nat) : Nat := setCoord m.logical (CoRec.axis r) ((CoRec.lo r + k % n) % e)
  (List.range n).any fun k => m.crossesLink l (at_ k) (at_ (k + 1)) || m.crossesLink l (at_ (k + 1)) (at_ k)

/-- Whether both ends of a link lie inside a span. -/
def Mod.spanHolds (m : Mod) (w : W64) (l : Nat × Nat) : Bool :=
  match logicalIn m.fab.remap l.1, logicalIn m.fab.remap (m.farEnd l) with
  | some a, some b => m.spanHas w a && m.spanHas w b
  | _, _ => false

/-! ### Link notices (R264) -/

/-- Whether an operation is a collective or a `REDUCE_UPDATE` that uses the fabric. -/
def ringOp (r : W1024) : Bool := 0x50 ≤ Rc.opcode r && Rc.opcode r ≤ 0x55 && !(Rc.opcode r == 0x55 && RuRec.local_ r)

/-- Collectives whose rings a link carries: queues' operations, and layers of update phases that exchange. -/
def Mod.jobsOver (m : Mod) (l : Nat × Nat) : List Job :=
  (m.liveQueues.filter fun i => match (m.queue i).op with
    | some o => ringOp o.rcd && !o.ready && m.ringCrosses l o.rcd
    | none => false).map .q
  ++ (m.ctxs.map (·.1)).flatMap fun c => ((List.range (m.ctx c).layers.length).filter fun k =>
      match (m.ctx c).layers[k]? with
      | some o => ringOp o.rcd && o.co.ring.isSome && m.ringCrosses l o.rcd
      | none => false).map (.layer c)

/-- Contexts with a generation in drain that has a route over a link. -/
def Mod.drainsOver (m : Mod) (l : Nat × Nat) : List Nat :=
  (m.ctxs.map (·.1)).filter fun c => (m.ctx c).drain.isSome
    && (m.castPeers c false ++ m.castPeers c true).any fun d => m.crossesLink l m.logical d

/-- Ends the span reductions of context `c` that a lost link cuts (R375), and abandons its step (R319). -/
def Mod.noticeCtx (m : Mod) (l : Nat × Nat) (c : Nat) : Mod :=
  let m := if m.on F.STEP_CFG_abandon_on_notice c && m.spanHolds (m.updSpan c) l then m.abandonStep c false else m
  let m := match (m.ctx c).vote with
    | some r => if m.spanHolds r.span l then m.voteEnd c ST_NO_ROUTE else m
    | none => m
  let m := match (m.ctx c).normRed with
    | some r => if m.spanHolds r.span l then
        ((m.setCtx c { m.ctx c with normRed := none, updErr := true }).spanForget c 1) else m
    | none => m
  match (m.ctx c).castRed with
  | some r => if m.spanHolds r.span l then m.genAbandon c ST_NO_ROUTE else m
  | none => m

/-- Adds the automatic entry of a link, unless one is present. -/
def Mod.autoAdd (m : Mod) (l : Nat × Nat) : Mod :=
  let mine (e : Nat × W64) : Bool := decide (224 ≤ e.1) && Dt.valid e.2 && Dt.addr e.2 == l.1 && Dt.port e.2 == l.2
  if m.fab.detour.any mine then m
  else match (List.range 32).find? fun j => Tab.get 0 m.fab.detour (224 + j) == 0 with
    | some j => m.setAuto (224 + j) (BitVec.ofNat 64 (l.1 + l.2 * 2 ^ 24 + 2 ^ 28 + 2 ^ 29))
    | none => m.log { st := ST_DETOUR_FULL, cls := .event, block := Blk.RTE, d0 := l.1, d1 := l.2 }

/-- Removes the automatic entry of a link. -/
def Mod.autoDrop (m : Mod) (l : Nat × Nat) : Mod :=
  match m.fab.detour.find? fun e => decide (224 ≤ e.1) && Dt.addr e.2 == l.1 && Dt.port e.2 == l.2 with
  | some e => m.setAuto e.1 0
  | none => m

/-- The module acts on a link notice, its own or one received. -/
def Mod.noticeAct (m : Mod) (pl : Payload) : Mod :=
  match pl with
  | .notice addr port st _ _ =>
    let l := (addr.toNat, port.toNat)
    let s := st.toNat
    if s = 2 || s = 3 then m.autoDrop l
    else if s = 4 || s = 5 then
      let jobs := m.jobsOver l
      let gens := m.drainsOver l
      let m := m.autoAdd l
      let m := m.each (List.range 64) (Mod.noticeCtx · l)
      let m := jobs.foldl (fun m j => m.jobAbort j ST_NO_ROUTE) m
      m.each gens fun m c => m.genAbandon c ST_NO_ROUTE
    else m
  | _ => m

/-! ### Arrival -/

/-- A packet that this module is the destination of, or a flood that it sees first, through port `n` (8: from itself). -/
def Mod.consume (m : Mod) (n : Nat) (p : Packet) : Mod :=
  let t := p.hdr.ptype.toNat
  if t = 0x01 then m.discovery n p.payload
  else if t = 0x02 then m.noticeAct p.payload
  else if t = 0x03 then m.routesTake p.payload
  else if t = 0x10 || t = 0x11 || t = 0x13 then m.collPacket n p
  else if t = 0x12 then m.spanPacket p
  else if 0x20 ≤ t && t ≤ 0x25 then m.castPacket p
  else if t = 0x30 then m.watchData p
  else if t = 0x31 then (match p.payload with | .watchAck id w => m.watchAnswer id w | _ => m)
  else m.misroute n

/-- Whether a packet's epoch lies within 1 of the active one (R261). -/
def Mod.epochOk (m : Mod) (p : Packet) : Bool :=
  let d := (p.hdr.epoch.toNat + 65536 - m.get F.RTE_EPOCH_epoch) % 65536
  d == 0 || d == 1 || d == 65535

/-- Whether the receiver's context lets a packet in (R266). -/
def Mod.genOk (m : Mod) (p : Packet) : Bool :=
  let c := p.hdr.ctx.toNat
  !p.hdr.ctxValid || (m.ctxState c == 1 && m.get F.CTX_STAT_gen c == p.hdr.gen.toNat)

/-- Delivery of a packet addressed to this module. -/
def Mod.deliver (m : Mod) (n : Nat) (p : Packet) : Mod :=
  if !m.epochOk p then (if n < 8 then m.bump F.LNK_DROP_epoch n 1 else m)
  else if !m.genOk p then m.bump F.LNK_CTX_GEN_stale p.hdr.ctx.toNat 1
  else m.consume n p

/-- Whether a packet is flooded (R265). -/
def flooded (p : Packet) : Bool := p.hdr.dst == 0xFFFFFF

/-- A root key arrives as a flood through port `n` (R254 step 2). Modules in election have no address that would tell their
floods apart: a key lower than any seen is kept and passed on, any other is dropped. -/
def Mod.keyIn (m : Mod) (n : Nat) (p : Packet) (k : Nat × Nat) : Mod :=
  if m.fab.bestKey.all (keyLt k) then { (m.floodOut p n) with fab := { (m.floodOut p n).fab with bestKey := some k } } else m

/-- A flooded packet arrives through port `n`: forwarded and acted on the first time (R265). -/
def Mod.floodIn (m : Mod) (n : Nat) (p : Packet) : Mod :=
  match p.payload with
  | .rootKey k i => if p.hdr.ptype = 0x01 then m.keyIn n p (k.toNat, i.toNat) else m
  | _ =>
    let (seen, m) := m.seenPair p.hdr.src.toNat p.hdr.bseq.toNat
    if seen then m else (m.floodOut p n).consume n p

/-- A packet with no hops left, through port `n`. An address assignment goes to whatever module the link leads to. -/
def Mod.arriveHere (m : Mod) (n : Nat) (p : Packet) : Mod :=
  if flooded p then m.floodIn n p
  else if (match p.payload with | .address _ => p.hdr.ptype == 0x01 | _ => false) then m.consume n p
  else if p.hdr.dst.toNat ≠ m.phys then m.misroute n
  else m.deliver n p

/-- PACKET_RECEIVE: the last flit of a packet has arrived on a VC and class of port `n`. Its flits leave the receive buffer, and
it is forwarded or delivered (R256). -/
def Mod.arrive (m : Mod) (n vc : Nat) (cls : Bool) (p : Packet) : Mod :=
  if !(if vc = 0 then m.carries0 n else m.usable n) then m
  else
    let m := m.releaseRx n vc cls (flitCount p)
    if flooded p then m.floodIn n p
    else match m.hop p.hdr.route.toNat with
      | none => m.arriveHere n p
      | some (o, r, wrap) =>
        if !m.accepts o vc then m.bump F.LNK_DROP_route n 1
        else m.enqueue o vc (wrap || (cls && o / 2 == n / 2)) { p with hdr := { p.hdr with route := BitVec.ofNat 32 r } }

/-- A packet named by its kind arrives through port `n` at its destination: `kinds` are the packet types that the command
stands for. -/
def Mod.arriveKind (m : Mod) (n : Nat) (p : Packet) (kinds : List Nat) : Mod :=
  if !m.carries0 n || !kinds.contains p.hdr.ptype.toNat then m else m.arriveHere n p

end Sys2Proof.Machine
end

