-- ==== Sys2Proof/Machine/Image.lean ====
section
/-! DEFINITION. Signed images (R421): the container, its RSASSA-PSS signature, and where images are read from (R428, R440,
R445). -/

namespace Sys2Proof.Machine

/-! ### RSASSA-PSS with SHA-256, MGF1 with SHA-256, a 32-byte salt and exponent 65,537 -/

/-- `s` to the power 65,537 modulo `n`. -/
def rsaPublic (n s : Nat) : Nat := (((List.range 16).foldl (fun x _ => x * x % n) s) * s) % n

/-- The first `k` bytes of MGF1 over `seed`. -/
def mgf1 (seed : List Byte) (k : Nat) : List Byte :=
  ((List.range (ceilDiv k 32)).flatMap fun i => sha256 (seed ++ (leBytes 4 i).reverse)).take k

/-- Whether a 384-byte encoded message belongs to a message. -/
def pssMatches (em msg : List Byte) : Bool :=
  let h := slice em 351 32
  let db := ((em.take 351).zip (mgf1 h 351)).map fun x => x.1 ^^^ x.2
  let db := match db with | b :: t => (b &&& 0x7F) :: t | [] => []
  em.getLast? == some 0xBC && (em.headD 0xFF).toNat < 128
  && db.take 319 == List.replicate 318 0 ++ [1]
  && sha256 (List.replicate 8 0 ++ sha256 msg ++ db.drop 319) == h

/-- Whether a signature verifies: modulus and signature as stored, little-endian. -/
def pssVerify (modulus sig msg : List Byte) : Bool :=
  let n := leNat modulus
  let s := leNat sig
  n.testBit 3071 && n % 2 == 1 && decide (s < n) && pssMatches (leBytes 384 (rsaPublic n s)).reverse msg

/-! ### The container -/

/- Fields of the header (Table 14.3). -/
namespace Ih
def magic (l : List Byte) : Nat := leNat (slice l 0 4)
def version (l : List Byte) : Nat := leNat (slice l 4 2)
def kind (l : List Byte) : Nat := leNat (slice l 6 1)
def signer (l : List Byte) : Nat := leNat (slice l 7 1)
def part (l : List Byte) : Nat := leNat (slice l 8 4)
def length (l : List Byte) : Nat := leNat (slice l 0xC 4)
def ver (l : List Byte) : Nat := leNat (slice l 0x10 2)
def svn (l : List Byte) : Nat := leNat (slice l 0x14 4)
def hash (l : List Byte) : List Byte := slice l 0x20 32
def modulus (l : List Byte) : List Byte := slice l 0x80 384
def signature (l : List Byte) : List Byte := slice l 0x200 384
end Ih

/-- Whether the fixed fields of a header are as Table 14.3 gives. -/
def headerOk (l : List Byte) : Bool :=
  Ih.magic l == 0x9E170001 && Ih.version l == 1 && Ih.part l == 0x3016
  && decide (1 ≤ Ih.length l) && decide (Ih.length l ≤ 32 * 2 ^ 20 - 1024)
  && (slice l 0x12 2 ++ slice l 0x18 8 ++ slice l 0x40 64 ++ slice l 0x380 128).all (· == 0)
  && (Ih.signer l != 2 || (Ih.modulus l ++ Ih.signature l).all (· == 0))

/-- Whether `signer` is allowed for a kind (Table 14.4). -/
def Mod.signerOk (m : Mod) (kind signer : Nat) : Bool :=
  let owned := m.boot.owner.isSome
  match kind with
  | 1 | 3 | 4 | 5 => signer == 0
  | 2 => if owned then signer == 1 else signer == 0 || signer == 2
  | 6 => signer == 0 || signer == 1
  | 7 => signer == (if owned then 1 else 0)
  | 8 | 9 => signer == 1
  | _ => false

/-- Whether the modulus is that of the key that `signer` names; `first` marks the first owner provisioning. -/
def Mod.keyOk (m : Mod) (l : List Byte) (first : Bool) : Bool :=
  if first then Ih.modulus l == slice l 0x400 384 && Ih.length l == 384
  else match Ih.signer l with
    | 0 => sha256 (Ih.modulus l) == leBytes 32 Config.pyrtasKeyHash.toNat
    | 1 => match m.boot.owner with
      | some h => sha256 (Ih.modulus l) == leBytes 32 h.toNat
      | none => false
    | _ => true

/-- R421 on an image of one of `kinds` with minimum SVN `least`: signature checks come before hash checks. -/
def Mod.imageStatus (m : Mod) (l : List Byte) (kinds : List Nat) (least : Nat) (first : Bool := false) : Status :=
  if !headerOk l || !kinds.contains (Ih.kind l) || !m.signerOk (Ih.kind l) (Ih.signer l) then ST_SIG_INVALID
  else if !m.keyOk l first then ST_SIG_INVALID
  else if Ih.signer l != 2 && !pssVerify (Ih.modulus l) (Ih.signature l) (l.take 512) then ST_SIG_INVALID
  else if Ih.svn l < least then ST_SIG_INVALID
  else if sha256 (slice l 0x400 (Ih.length l)) != Ih.hash l then ST_HASH_MISMATCH
  else ST_OK

/-- An image of `length` payload bytes: its first bytes. -/
def imageBytes (l : List Byte) : List Byte := l.take (1024 + Ih.length l)

/-- What the module keeps of a loaded image. -/
def imageOf (l : List Byte) : Image :=
  { ver := Ih.ver l, svn := Ih.svn l, digest := BitVec.ofNat 256 (leNat (sha256 (imageBytes l))) }

/-- The stacks out of service that a range lies on, and whether a word of it is poisoned. -/
def Mod.rangeStatus (m : Mod) (pa n : Nat) : Status :=
  if (List.range n).any (fun j => !m.partUp (m.stackOf (pa + j))) then ST_PART_DOWN
  else if m.poisonedIn pa n then ST_MEM_UNCORR else ST_OK

/-- Reads an image from a physical address, or in recovery mode from an offset in the staging SRAM. -/
def Mod.readImage (m : Mod) (pa : Nat) : Status × List Byte :=
  let rd (n : Nat) : Status × List Byte :=
    if m.inRecovery then (ST_OK, m.stagingRead pa n) else (m.rangeStatus pa n, m.rd pa n)
  let (st, h) := rd 1024
  if st ≠ ST_OK then (st, []) else if !headerOk h then (ST_SIG_INVALID, []) else rd (1024 + Ih.length h)

/-- The accesses that read an image from module memory: its header, and the whole object where the header is right (R202, R204). -/
def Mod.imageReach (m : Mod) (pa : Nat) : Mod :=
  let h := m.rd pa 1024
  let n := if m.rangeStatus pa 1024 = ST_OK && headerOk h then 1024 + Ih.length h else 1024
  if m.inRecovery then m else (m.dropped (pagesOf pa n)).reach false .rd pa n

/-- The accesses that read the object of a command. -/
def Mod.bootReach (m : Mod) : Mod := m.imageReach (m.get F.BOOT_IMG_ADDR_addr * 1024)

/-- The object of a command, at `BOOT_IMG_ADDR`. -/
def Mod.bootObject (m : Mod) : Status × List Byte := m.readImage (m.get F.BOOT_IMG_ADDR_addr * 1024)

/-- An image that passes R421, or the status of its failure. -/
def Mod.verified (m : Mod) (x : Status × List Byte) (kinds : List Nat) (least : Nat) (first : Bool := false) : Status :=
  if x.1 ≠ ST_OK then x.1 else m.imageStatus x.2 kinds least first

end Sys2Proof.Machine
end

