-- ==== Sys2Proof/Machine/Resets.lean ====
section
/-! DEFINITION. Partitions in and out of service (R364-R366, R384, R463), timeouts (R372-R374), the deadlock detector (R376-R378),
crash dumps (R379-R381) and microcode loads (R385-R387). -/

namespace Sys2Proof.Machine

/-! ### Partitions -/

/-- A partition's clock runs again: `RESUME` with its cause and the time stopped (R393). -/
def Mod.resume (m : Mod) (p cause ns : Nat) : Mod :=
  (m.cnt (8 * p + 4) 1).trace p 0x0A 0xFF 0 0xFFFF (cause + ns % 2 ^ 64 * 2 ^ 64)

/-- Every queue looks at its head. -/
def Mod.allHeads (m : Mod) : Mod := m.each m.liveQueues Mod.headArrive

/-- PART_RESET: `PART_CTL[p].reset`. -/
def Mod.partReset (m : Mod) (p : Nat) : Mod :=
  let s := m.get F.PART_STAT_state p
  if (s = 2 || s = 3) && !m.failed then m.partResetNow p 2 ST_PART_RESET else m

/-- Every word of stack `p` is poisoned (R366). -/
def Mod.poisonFill (m : Mod) (p : Nat) : Mod :=
  let m := { m with poison := m.poison.clear (p * 2 ^ 33) ((p + 1) * 2 ^ 33), mem := Tab.clear m.mem (p * 2 ^ 36) ((p + 1) * 2 ^ 36) }
  m.setPart p { m.part p with fill := true }

/-- Partition `p` runs: after a reset, or powered up from `OFF`. -/
def Mod.partRun (m : Mod) (p : Nat) : Mod :=
  let m := (m.set F.PART_STAT_state p 2).set F.PART_STAT_ucode_ver p (m.part p).ucode.ver
  (m.set F.PWR_PART_STAT_gate p 0).partBack p

/-- Partition `p` is `OFF`, its cores and sequencer power-gated. -/
def Mod.partOff (m : Mod) (p : Nat) : Mod :=
  let m := (m.set F.PART_STAT_state p 0).set F.PWR_PART_STAT_gate p 2
  m.setPart p { m.part p with active := none, stopTime := m.time }

/-- A reset of partition `p` ends (Table 12.5 steps 5 to 7); the pending enable executes (R384). The stack of a partition that
is not enabled serves again. -/
def Mod.partReturn (m : Mod) (p : Nat) : Mod :=
  let m := if m.on F.MEM_STACK_STAT_stack_fault p then (m.poisonFill p).set F.MEM_STACK_STAT_stack_fault p 0 else m
  let ns := m.time - (m.part p).stopTime
  let m := m.setPart p { m.part p with resetCause := 0, selfRefresh := false, waking := false }
  let m := m.calNew
  let pend := (m.get F.FLT_PEND_BLK_part).testBit p
  let m := m.setBit F.FLT_PEND_BLK_part 0 p false
  let m := if pend then m.set F.PART_CTL_enable p 1 else m
  if m.on F.PART_CTL_enable p then ((m.partRun p).cnt (8 * p + 1) ns).resume p 2 ns else (m.partOff p).partBack p

/-- PART_RESET_COMPLETE. A stack in self-refresh returns by STACK_COOLED_RETURN. -/
def Mod.partResetComplete (m : Mod) (p : Nat) : Mod :=
  if m.get F.PART_STAT_state p = 5 && !(m.part p).selfRefresh && !m.failed then m.partReturn p else m

/-- PART_ENABLE: the write of 1 to `PART_CTL[p].enable` (R463, R384). -/
def Mod.partEnable (m : Mod) (p : Nat) : Mod :=
  let s := m.get F.PART_STAT_state p
  if s = 2 || s = 3 then m.log { st := ST_CTX_STATE, cls := .refused, block := Blk.PART, part := p }
  else if s = 4 || s = 5 then m.setBit F.FLT_PEND_BLK_part 0 p true
  else
    let m := m.set F.PART_CTL_enable p 1
    if s = 0 && m.on F.BOOT_STAT_ready && !m.failed then
      let ns := m.time - (m.part p).stopTime
      let m := m.partRun p
      if (m.part p).stopTime = 0 then m else (m.cnt (8 * p + 1) ns).resume p 1 ns
    else m

/-- PART_DISABLE: the write of 0 to `PART_CTL[p].enable`. -/
def Mod.partDisable (m : Mod) (p : Nat) : Mod :=
  if (m.get F.FLT_PEND_BLK_part).testBit p then
    (m.setBit F.FLT_PEND_BLK_part 0 p false).log { st := ST_ENABLE_CANCELLED, cls := .event, block := Blk.PART, part := p }
  else if (List.range 64).any fun c => m.ctxState c != 0 && (m.get F.CTX_CFG_part_mask c).testBit p then
    m.log { st := ST_CTX_STATE, cls := .refused, block := Blk.PART, part := p }
  else
    let s := m.get F.PART_STAT_state p
    let m := m.set F.PART_CTL_enable p 0
    if s = 2 || s = 3 then (m.parkEnd p ST_BUSY).partOff p else m

/-! ### Timeouts (R372-R374) -/

/-- Whether an opcode has the operation timeout of Table 12.7. -/
def timedOp (code : Nat) : Bool := decide (0x10 ≤ code) && decide (code < 0x50)

/-- OP_TIMEOUT. -/
def Mod.opTimeout (m : Mod) (i : Nat) : Mod :=
  match (m.queue i).op with
  | some o => if timedOp (Rc.opcode o.rcd) then (m.summary F.FLT_SUMMARY_timeout).abortOp i ST_OP_TIMEOUT else m
  | none => m

/-- SHARE_STOP_TIMEOUT: partitions whose shares of the timed-out operation of queue `i` have not stopped are reset. The dump
is for a timeout reset, ahead of the class 4 reports of the reset itself; a trigger that fails the module instead resets nothing
(R364, R379). -/
def Mod.shareStop (m : Mod) (i parts : Nat) : Mod :=
  if (m.queue i).halted = some ST_OP_TIMEOUT then
    m.each ((bitList 16 (parts &&& m.qMask i)).filter fun p => m.get F.PART_STAT_state p == 2) fun m p =>
      if m.get F.PART_STAT_state p ≠ 2 then m
      else (if m.lastReset p then m else m.dumpAuto ST_OP_TIMEOUT 3).faultReset p ST_OP_TIMEOUT
  else m

/-- QUEUE_STALL: recorded once per stall. -/
def Mod.queueStall (m : Mod) (i : Nat) : Mod :=
  let q := m.queue i
  let c := qCtx i
  if m.get F.HANG_CTX_CFG_queue_ms c = 0 || !m.qOn i || q.waiting = 0 || q.halted.isSome || m.held i || q.stalled then m
  else (m.setQueue i { q with stalled := true }).log { st := ST_QUEUE_STALL, cls := .event, block := Blk.Q, ctx := c, queue := i }

/-- Block of a BAR0 offset: bits [31:16] of its base (Table 14.7). -/
def blockOf (off : Nat) : Nat :=
  ([Blk.GEO, Blk.PWR, Blk.CLK, Blk.BOOT, Blk.SEC, Blk.FLT, Blk.HANG, Blk.DUMP, Blk.TIME, Blk.CNT, Blk.TRC, Blk.WATCH, Blk.PART,
    Blk.MEM, Blk.SC, Blk.CTX, Blk.Q, Blk.FLG, Blk.TDT, Blk.MQ, Blk.CAL, Blk.UPD, Blk.COL, Blk.LNK, Blk.RTE, Blk.CAST, Blk.STEP,
    Blk.PCI].filter fun b => decide (b * 2 ^ 16 ≤ off)).foldl max 0

/-- BAR0_NO_RESPONSE: a read returns all ones, a write is dropped (R371). -/
def Mod.bar0NoResponse (m : Mod) (off : Nat) (write : Bool) : Mod :=
  let m := m.log { st := ST_NO_RESPONSE, cls := .event, block := blockOf off, d0 := off }
  if write then m else m.emit (.completion (List.replicate 8 0xFF) false)

/-- ARMATURE_WATCHDOG_EXPIRY: the Armature processor restarts; no other block is affected (R372). -/
def Mod.armatureWatchdog (m : Mod) : Mod := m.log { st := ST_WATCHDOG, cls := .event, block := Blk.BOOT }

/-! ### The deadlock detector (R377, R378) -/

/-- Module flags that the engines of context `c` raise: those that `MQ_FLAGS` and `STEP_FLAGS` enable, and those of prefetch list
headers. -/
def Mod.engineFlags (m : Mod) (c : Nat) : List Nat :=
  (if m.on F.MQ_FLAGS_recipe_flag_en c then [m.ctxFlag c (m.get F.MQ_FLAGS_recipe_flag c)] else [])
  ++ (if m.on F.MQ_FLAGS_storm_flag_en c then [m.ctxFlag c (m.get F.MQ_FLAGS_storm_flag c)] else [])
  ++ (if m.on F.STEP_FLAGS_cond_flag_en c then [m.ctxFlag c (m.get F.STEP_FLAGS_cond_flag c)] else [])
  ++ (List.range (m.get F.CTX_PF_CFG_pf_count c)).filterMap fun l =>
    let (st, _, _, flag, _) := m.pfHeader c l
    if st = ST_OK then some (m.ctxFlag c flag) else none

/-- A queue in the detector's graph: its index, the module flag it waits on, its target. -/
abbrev Blocked := Nat × Nat × Nat

/-- Queues that are `BLOCKED` on a flag wait. -/
def Mod.blockedQueues (m : Mod) : List Blocked :=
  m.liveQueues.filterMap fun i =>
    if (m.queueState i).1 ≠ 3 then none
    else match m.headRec i with
      | none => none
      | some r => (m.firstWait (qCtx i) r).map fun w => (i, m.ctxFlag (qCtx i) (Rc.waitFlag r w), Rc.waitTgt r w)

/-- Registered signallers of a flag. -/
def Mod.signallers (m : Mod) (f : Nat) : List Nat := ((m.hang.sigs.filter (·.flag == f)).map (·.queue)).dedup

/-- Whether a blocked queue can be in a knot by itself: first, second, and half of the third condition. -/
def Mod.knotable (m : Mod) (b : Blocked) : Bool :=
  !m.hang.unknown.contains b.2.1 && !(m.engineFlags (qCtx b.1)).contains b.2.1 && !(m.signallers b.2.1).isEmpty

/-- Keeps the queues all of whose signallers are kept; `k` bounds the rounds. -/
def Mod.knotCore (m : Mod) : Nat → List Blocked → List Blocked
  | 0, l => l
  | k + 1, l => m.knotCore k (l.filter fun b => (m.signallers b.2.1).all fun s => l.any (·.1 == s))

/-- Queues of `l` joined to a queue of `seen` by signalling either way; `k` bounds the rounds. -/
def Mod.knotJoin (m : Mod) (l : List Blocked) : Nat → List Blocked → List Blocked
  | 0, seen => seen
  | k + 1, seen =>
    m.knotJoin l k (l.filter fun b => seen.contains b || seen.any fun x =>
      (m.signallers b.2.1).contains x.1 || (m.signallers x.2.1).contains b.1)

/-- Splits a set into its connected parts; `k` bounds their number. -/
def Mod.knotParts (m : Mod) : Nat → List Blocked → List (List Blocked)
  | 0, _ => []
  | _, [] => []
  | k + 1, b :: t =>
    let p := m.knotJoin (b :: t) (t.length + 1) [b]
    p :: m.knotParts k ((b :: t).filter fun x => !p.contains x)

/-- Whether a blocked queue's target cannot be reached (R378). -/
def Mod.unreachable (m : Mod) (b : Blocked) : Bool :=
  let s := m.hang.sigs.filter (·.flag == b.2.1)
  !s.isEmpty && !m.hang.unknown.contains b.2.1 && s.all (fun x => !x.isSet)
  && decide ((m.flag b.2.1).toNat + (s.map (·.value)).sum < b.2.2)

/-- What the detector finds now: kind, members with flag, target and value. -/
def Mod.findings (m : Mod) : List (Nat × List Blocked) :=
  let bs := m.blockedQueues
  let core := m.knotCore bs.length (bs.filter m.knotable)
  (m.knotParts core.length core).map (fun p => (1, p)) ++ (bs.filter m.unreachable).map fun b => (2, [b])

/-- The record of Table 12.8. -/
def Mod.deadlockRec (m : Mod) (kind : Nat) (l : List Blocked) : List Byte :=
  let member (b : Blocked) : List Byte :=
    leBytes 8 (b.1 + b.2.1 * 2 ^ 16 + min (b.2.2 - (m.flag b.2.1).toNat) (2 ^ 32 - 1) * 2 ^ 32)
  slice (leBytes 8 m.time ++ leBytes 2 l.length ++ leBytes 1 kind ++ leBytes 1 (b2n (decide (14 < l.length))) ++ leBytes 4 0
    ++ (l.take 14).flatMap member) 0 128

/-- Reports a finding; `HANG_STAT.reports` counts the records written. -/
def Mod.deadlockReport (m : Mod) (kind : Nat) (l : List Blocked) : Mod :=
  let sl := m.get F.HANG_RING_CFG_size_log2
  let full := (m.get F.HANG_RING_PTR_head + 1) % 2 ^ sl == m.get F.HANG_RING_PTR_tail % 2 ^ sl
  let m := if sl = 0 || full then m else m.bump F.HANG_STAT_reports 0 1
  let m := if sl = 0 then m else
    m.ringWrite (m.get F.HANG_RING_CFG_base * 4096) (2 ^ sl) 128 F.HANG_RING_PTR_head F.HANG_RING_PTR_tail F.HANG_RING_PTR_lost 0
      (m.deadlockRec kind l)
  let q := (l.head?.map (·.1)).getD 0xFFFF
  let m := m.log { st := ST_DEADLOCK, cls := .event, block := Blk.HANG, ctx := q / 16, queue := q, d0 := l.length }
  let m := m.summary F.FLT_SUMMARY_deadlock
  if m.on F.HANG_CFG_dump_on_deadlock then m.dumpAuto ST_DEADLOCK 4 else m

/-- One finding against what was seen before: stable for 2 ms and not reported, it is reported. -/
def Mod.knotStep (m : Mod) (f : Nat × List Blocked) : Mod :=
  let mem := f.2.map fun b => (b.1, b.2.1, m.flag b.2.1)
  let old := m.hang.knots.find? fun k => k.kind == f.1 && k.members.map (·.1) == f.2.map (·.1)
  let (since, rep) := match old with
    | some k => (if k.members = mem then k.since else m.time, k.reported)
    | none => (m.time, false)
  let due := !rep && decide (since + 2000000 ≤ m.time)
  let m := if due then m.deadlockReport f.1 f.2 else m
  let new : Knot := { kind := f.1, members := mem, since := since, reported := rep || due }
  { m with hang := { m.hang with
    knots := new :: m.hang.knots.filter fun k => !(k.kind == f.1 && k.members.map (·.1) == f.2.map (·.1)) } }

/-- DEADLOCK_SCAN: findings that have dissolved are forgotten. -/
def Mod.deadlockScan (m : Mod) : Mod :=
  if !m.on F.HANG_CFG_enable then { m with hang := { m.hang with knots := [] } }
  else
    let fs := m.findings
    let m := { m with hang := { m.hang with
      knots := m.hang.knots.filter fun k => fs.any fun f => k.kind == f.1 && k.members.map (·.1) == f.2.map (·.1) } }
    fs.foldl Mod.knotStep m

/-! ### Crash dumps (R379-R381) -/

/-- DUMP_TRIGGER. -/
def Mod.dumpTrigger (m : Mod) : Mod := m.dumpBegin ST_OK 0

/-- DUMP_DISCARD. -/
def Mod.dumpDiscard (m : Mod) : Mod := (m.set F.DUMP_STAT_valid 0 0).set F.DUMP_STAT_missed 0 0

/-- Block and instance of the sections, in the order of Table 12.9; `df` stands for the number of the die fabric, which has
no register block. -/
def dumpOrder (df : Nat) : List (Nat × Nat) :=
  let each (b n : Nat) : List (Nat × Nat) := (List.range n).map fun k => (b, k)
  [(Blk.FLT, 0), (Blk.HANG, 0)] ++ each Blk.CTX 64
  ++ (List.range 16).flatMap (fun p => [(Blk.Q, p), (Blk.CAL, p), (Blk.MEM, p), (Blk.SC, p), (Blk.PART, p)])
  ++ each df 4 ++ each Blk.LNK 8 ++ each Blk.COL 8 ++ each Blk.UPD 8 ++ each Blk.CAST 2
  ++ [(Blk.MQ, 0), (Blk.STEP, 0), (Blk.PCI, 0)]

/-- Bytes of the dump SRAM (`GEO_MEM`). -/
def dumpBytes : Nat := 8 * 2 ^ 20

/-- Lays sections out from byte `off`: an entry of Table 12.10 and the data of each. A section that does not fit is
`TRUNCATED`, and the dump ends there. -/
def dumpLay : List ((Nat × Nat) × List Byte × Option Nat) → Nat → List (List Byte) × List Byte
  | [], _ => ([], [])
  | (b, data, fail) :: t, off =>
    let words := data.length / 8
    let fits := decide (off + 8 * words ≤ dumpBytes)
    let kept := if fits then words else (dumpBytes - off) / 8
    let st := if !fits then 3 else match fail with | none => 0 | some 0 => 1 | some _ => 2
    let entry := leBytes 2 b.1 ++ leBytes 1 b.2 ++ leBytes 1 st ++ leBytes 4 off ++ leBytes 4 kept ++ leBytes 4 (fail.getD 0xFFFFFFFF)
    let body := slice data 0 (8 * kept)
    if fits then
      let (es, l) := dumpLay t (off + 8 * kept)
      (entry :: es, body ++ l)
    else ([entry], body)

/-- What the model holds of the sections: the fault log ring, and the pointers of the deadlock ring; of the other blocks the layout
of what the debug bus reads is not given, and the command brings the bytes (DEDUCED, log entry 52). -/
def Mod.dumpOwn (m : Mod) (k : Nat) (brought : List Byte) : List Byte :=
  match k with
  | 0 => (List.range 1024).flatMap fun j => leBytes 32 (Tab.get 0 m.flog j).toNat
  | 1 => leBytes 8 (m.regAt R.HANG_RING_PTR.base 0)
  | _ => brought

/-- Section `k` as it was read: the words before the one that was not answered. A section of which nothing is reported did not
answer. -/
def Mod.dumpSection (m : Mod) (l : List (List Byte × Option Nat)) (k : Nat) : List Byte × Option Nat :=
  match l[k]? with
  | none => ([], some 0)
  | some (b, none) => (m.dumpOwn k b, none)
  | some (b, some w) => (slice (m.dumpOwn k b) 0 (8 * w), some w)

/-- DUMP_CAPTURE_DONE: what each section was read as, with the index of a word that was not answered. The dump is laid out as
Table 12.10 gives. -/
def Mod.dumpDone (m : Mod) (l : List (List Byte × Option Nat)) : Mod :=
  match m.capture with
  | none => m
  | some c =>
    let (k, m) := m.draw
    let order := dumpOrder (Config.freeNat k % 2 ^ 16)
    let l := (List.range order.length).map (m.dumpSection l)
    let (es, body) := dumpLay (order.zip l) 0x2000
    let used := 0x2000 + body.length
    let header := leBytes 4 0x5DB00001 ++ leBytes 2 1 ++ leBytes 2 es.length ++ leBytes 2 c.cause ++ leBytes 1 c.trigger
      ++ leBytes 1 0 ++ leBytes 4 used ++ leBytes 8 c.start ++ leBytes 8 m.time ++ leBytes 8 (m.get F.SEC_ID_identity)
      ++ leBytes 4 m.phys ++ List.replicate 20 0
    let image := slice (header ++ es.flatten) 0 0x2000 ++ body
    let bad := (((order.zip l).take es.length).filter fun e => e.2.2.isSome).length
    let m := { m with dump := ((List.range image.length).zip image).foldl (fun (t : Tab Byte) (e : Nat × Byte) => Tab.set 0 t e.1 e.2) [], capture := none }
    let m := (m.set F.DUMP_STAT_busy 0 0).set F.DUMP_STAT_valid 0 1
    (m.set F.DUMP_STAT_sections 0 es.length).set F.DUMP_STAT_no_response 0 bad

/-! ### Microcode loads (R385) -/

/-- UCODE_LOAD: `PART_UCODE_CMD` with `load` 1. -/
def Mod.ucodeLoad (m : Mod) (p : Nat) : Mod :=
  if m.on F.PART_UCODE_CMD_busy then m.refuse ST_BUSY Blk.PART
  else
    let m := m.imageReach (m.get F.PART_UCODE_ADDR_base * 4096)
    let x := m.readImage (m.get F.PART_UCODE_ADDR_base * 4096)
    let st := m.verified x [3] (m.part p).ucode.svn
    let st := if st = ST_OK && !Config.ucodeOk (x.2.drop 1024) then ST_UCODE_INVALID else st
    if st ≠ ST_OK then m.set F.PART_UCODE_CMD_status 0 st
    else (m.setPart p { m.part p with park := some (imageOf x.2) }).set F.PART_UCODE_CMD_busy 0 1

/-- UCODE_PARKED: no share runs on the partition; its store is written and the park released. -/
def Mod.ucodeParked (m : Mod) (p : Nat) : Mod :=
  match (m.part p).park with
  | none => m
  | some im =>
    if m.get F.PART_STAT_state p ≠ 2 || m.runsOn (2 ^ p) (fun _ => true) then m
    else
      let m := m.setPart p { m.part p with ucode := im }
      ((m.set F.PART_STAT_ucode_ver p im.ver).parkEnd p ST_OK).resume p 4 0

/-- UCODE_PARK_TIMEOUT. -/
def Mod.ucodeParkTimeout (m : Mod) (p : Nat) : Mod := m.parkEnd p ST_BUSY

end Sys2Proof.Machine
end

