-- ==== Sys2Proof/Machine/Monitor.lean ====
section
/-! DEFINITION. Counter windows (R399-R401), trace commands (R403-R405), and the scheduled global stop (R412-R416). -/

namespace Sys2Proof.Machine

/-! ### Counters of the cores (R395-R397) -/

/-- A word of a core's group as it follows from a schedule that the spec does not fix (log entry 15). -/
def Mod.coreRaw (m : Mod) (n w : Nat) : Nat := Config.cycleCount (0x10000 + 32 * n + w) m.time % 2 ^ 64

/-- `CNT_CORE[n][w]`: idle cycles are what busy and stalled cycles leave of the partition's cycles (R395). -/
def Mod.coreRead (m : Mod) (n w : Nat) : Nat :=
  if w = 1 then
    let used := ((0 :: (List.range 16).map (2 + ·)).map (m.coreRaw n)).sum
    (m.cntRead (8 * (n / 108)) + (2 ^ 64 - used % 2 ^ 64)) % 2 ^ 64
  else m.coreRaw n w

/-! ### Sampling windows -/

/-- Fields of the configuration in effect. -/
def Mod.winField (m : Mod) (f : Fld) : Nat := bits m.winCfg.toNat f.lo f.len

/-- The counter words of group `g`, first and end (R400). -/
def winGroup : Nat → Nat × Nat
  | 1 => (0, 128) | 2 => (128, 256) | 3 => (256, 288) | 4 => (288, 544) | 5 => (544, 616) | _ => (616, 888)

/-- The bytes of group `g`. -/
def Mod.winBytes (m : Mod) (g : Nat) : List Byte :=
  if g = 0 then (List.range 1728).flatMap fun n => (List.range 32).flatMap fun w => leBytes 8 (m.coreRead n w)
  else
    let (a, b) := winGroup g
    (List.range (b - a)).flatMap fun k => leBytes 8 (m.cntRead (a + k))

/-- Bytes of a slot for a group mask. -/
def winSlot (groups : Nat) : Nat :=
  let body := ((bitList 7 groups).map fun g => if g = 0 then 442368 else 8 * ((winGroup g).2 - (winGroup g).1)).sum
  ceilDiv (64 + body) 4096 * 4096

/-- The snapshot of the window that ends now, with the configuration in effect. -/
def Mod.winShot (m : Mod) : Mod :=
  let n := 2 ^ m.winField F.CNT_WIN_CFG_size_log2
  let h := m.get F.CNT_WIN_PTR_head
  if (h + 1) % n = m.get F.CNT_WIN_PTR_tail % n then m.bump F.CNT_WIN_PTR_skipped 0 1
  else
    let k := m.winField F.CNT_WIN_CFG_k
    let groups := m.winField F.CNT_WIN_CFG_groups
    let j := m.time / 2 ^ k - 1
    let header := leBytes 8 j ++ leBytes 8 ((j + 1) * 2 ^ k) ++ leBytes 1 k ++ leBytes 1 groups ++ leBytes 2 0
      ++ leBytes 4 (m.get F.CNT_WIN_PTR_skipped) ++ List.replicate 40 0
    let data := header ++ (bitList 7 groups).flatMap m.winBytes
    (m.wrInt (m.winField F.CNT_WIN_CFG_base * 4096 + winSlot groups * h) data).set F.CNT_WIN_PTR_head 0 ((h + 1) % n)

/-- COUNTER_WINDOW_END: the snapshot, and after it a change of `CNT_WIN_CFG` takes effect (R401). -/
def Mod.windowEnd (m : Mod) : Mod :=
  let m := if m.winField F.CNT_WIN_CFG_enable = 1 then m.winShot else m
  { m with winCfg := BitVec.ofNat 64 (m.regAt R.CNT_WIN_CFG.base R.CNT_WIN_CFG.reset) }

/-! ### Trace commands -/

/-- TRC_MARK. -/
def Mod.trcMark (m : Mod) (v : Nat) : Mod := m.trace 19 0x0C 0xFF 0 0xFFFF v

/-- Sends the partial block of buffer `b`, if it streams and has one. -/
def Mod.traceFlush (m : Mod) (b : Nat) : Mod :=
  let k := m.traceUnsent b
  if m.on F.TRC_BUF_stream_en b && k != 0 then
    let m := m.traceStream b (k / 128)
    let k := m.traceUnsent b
    if k = 0 || 128 ≤ k then m else m.traceBlock b k
  else m

/-- TRC_FLUSH. -/
def Mod.trcFlush (m : Mod) (mask : Nat) : Mod := m.each (bitList 17 mask) Mod.traceFlush

/-! ### The global stop -/

/-- STOP_ARM: the stop time is `TIME_STOP_AT`, or 1 µs from now where that comes later. -/
def Mod.stopArm (m : Mod) : Mod :=
  if m.get F.TIME_STOP_STAT_state ≠ 0 then m.refuse ST_BUSY Blk.TIME
  else
    let t := m.get F.TIME_STOP_AT_at
    { (m.set F.TIME_STOP_STAT_state 0 1) with
      stop := { m.stop with at_ := max t (m.time + 1000), late := decide (t < m.time + 1000) } }

/-- STOP_CANCEL. -/
def Mod.stopCancel (m : Mod) : Mod :=
  if m.get F.TIME_STOP_STAT_state = 1 then m.set F.TIME_STOP_STAT_state 0 0 else m

/-- GLOBAL_STOP_TAKE. -/
def Mod.stopTake (m : Mod) : Mod :=
  if m.get F.TIME_STOP_STAT_state ≠ 1 then m
  else
    let m := (m.set F.TIME_STOP_STAT_state 0 2).set F.TIME_STOP_TAKEN_taken 0 m.stop.at_
    m.set F.TIME_STOP_STAT_late 0 (b2n m.stop.late)

/-- STOP_RELEASE: resumption 2 µs after the write. -/
def Mod.stopRelease (m : Mod) : Mod :=
  if m.get F.TIME_STOP_STAT_state = 2 then (m.set F.TIME_STOP_STAT_state 0 3).set F.TIME_STOP_RESUMED_resumed 0 (m.time + 2000)
  else m

/-- GLOBAL_STOP_RESUME: the partitions resume, the faults and notices that waited are acted on, and ports that discarded DATA
flits ask for them again (R414, R416). -/
def Mod.stopResume (m : Mod) : Mod :=
  if m.get F.TIME_STOP_STAT_state ≠ 3 then m
  else
    let m := m.set F.TIME_STOP_STAT_state 0 0
    let ns := m.get F.TIME_STOP_RESUMED_resumed - m.get F.TIME_STOP_TAKEN_taken
    let m := m.each ((List.range 16).filter m.partReady) fun m p => (m.cnt (8 * p + 3) ns).resume p 3 ns
    let lost := m.stop.lost
    let held := m.fab.deferred
    let m := { m with stop := { m.stop with lost := [] }, fab := { m.fab with deferred := [] } }
    let m := held.foldl (fun m p =>
      let m := m.flood 0x02 p.payload
      { m with fab := { m.fab with loop := m.fab.loop ++ [p] } }) m
    let m := m.each lost fun m p => if m.partUp p then m.stackFault p else m
    m.each ((List.range 8).filter fun n => (m.port n).nakWait && m.carries0 n) Mod.sendNak

end Sys2Proof.Machine
end

