-- ==== Sys2Proof/Machine/Power.lean ====
section
/-! DEFINITION. Power, cooling and clocks (R452-R471): the power limit, die and stack temperatures, coolant, power states, gating
of partitions, and what removes the rails. -/

namespace Sys2Proof.Machine

/-! ### What removes the rails (R452, R453, R466, R468, R470) -/

/-- Every rail except the always-on domain goes: links and PCIe are down. -/
def Mod.railsOff (m : Mod) (r : Rails) : Mod :=
  { m with pwr := { m.pwr with rails := r, msTo := 0 }, pcie := { m.pcie with link := false } }

/-- A record of class 5 kept in always-on retention, for the next bring-up. -/
def Mod.retain (m : Mod) (st : Status) : Mod :=
  { m with pwr := { m.pwr with
      retained := m.pwr.retained ++ [({ st := st, cls := .fatal, block := Blk.PWR } : Rep).word m.time m.flogSeq] } }

/-- Whether rails are up, or about to be (Table 14.1 step 1). -/
def Mod.alive (m : Mod) : Bool := m.pwr.rails == .on || m.pwr.rails == .waitFlow

/-- Whether the always-on domain is supplied: what it serves goes on also while the rails are latched off (Table 15.12). -/
def Mod.standby (m : Mod) : Bool := m.pwr.rails != .off

/-- INPUT_OVERVOLTAGE. -/
def Mod.overvoltage (m : Mod) : Mod :=
  if m.alive then (m.log { st := ST_INPUT_RANGE, cls := .fatal, block := Blk.PWR }).railsOff .overvoltage else m

/-- BROWNOUT: the record waits in always-on retention (Table 15.2). -/
def Mod.brownout (m : Mod) : Mod := if m.alive then (m.retain ST_BROWNOUT).railsOff .brownout else m

/-- A thermal trip: latched, its record retained beside that of a brown-out (R468). -/
def Mod.trip (m : Mod) : Mod :=
  if m.alive || m.pwr.rails == .brownout then (m.retain ST_THERMTRIP).railsOff .trip else m

/-- REF_CLOCK_LOSS. -/
def Mod.refLoss (m : Mod) : Mod :=
  if m.alive then ((m.set F.CLK_STAT_ref_ok 0 0).retain ST_MODULE_FAILED).railsOff .refLoss else m

/-- Status of a retained record. -/
def retainedStatus (w : W256) : Status := bits w.toNat 64 16

/-- ALWAYS_ON_POWER_LOSS: the latches and a record of a brown-out go; the other retained records wait for the next bring-up,
which cannot come earlier (R468). -/
def Mod.alwaysOnLoss (m : Mod) : Mod :=
  { (m.railsOff .off) with
    pwr := { rails := .off, retained := m.pwr.retained.filter fun w => retainedStatus w != ST_BROWNOUT } }

/-! ### Clocks (R458) -/

/-- Whether `PCLK[p]` runs. -/
def Mod.clockRuns (m : Mod) (p : Nat) : Bool :=
  m.partReady p && m.get F.PWR_MS_CTL_state == 0 && !m.stopped

/-- Makes the rate of `PCLK[p]` the lower of its targets; a change writes a `CLOCK` record. -/
def Mod.clockSet (m : Mod) (p : Nat) : Mod :=
  let pw := m.get F.CLK_PCLK_power_mhz p
  let th := m.get F.CLK_PCLK_thermal_mhz p
  let f := if m.clockRuns p then min pw th else 0
  let old := m.get F.CLK_PCLK_mhz p
  let m := m.set F.CLK_PCLK_mhz p f
  if f = 0 || old = 0 || f = old then m else m.trace p 0x0B 0xFF 0 0xFFFF (f + b2n (decide (pw < th)) * 2 ^ 16)

/-- Every `PCLK` follows its targets. -/
def Mod.clocks (m : Mod) : Mod := m.each (List.range 16) Mod.clockSet

/-! ### The power limit (R455, R456, R470, R471) -/

/-- Mean flow of the last second, mL/min; none before the first sample. -/
def Mod.meanFlow (m : Mod) : Option Nat :=
  if m.pwr.cool.isEmpty then none else some ((m.pwr.cool.map (·.1)).sum / m.pwr.cool.length)

/-- The flow derating: 1,000 W per L/min below 3.0 L/min. -/
def Mod.flowLimit (m : Mod) : Nat := match m.meanFlow with | some f => if f < 3000 then f else 3000 | none => 3000

/-- The inlet derating: 150 W for each kelvin of the 1 s mean above 40 °C, down to 1,500 W. -/
def Mod.inletLimit (m : Mod) : Nat :=
  let n := m.pwr.cool.length
  let s := (m.pwr.cool.map (·.2)).sum
  if n = 0 || s ≤ 40 * n then 3000 else max 1500 (3000 - ceilDiv (150 * (s - 40 * n)) n)

/-- The effective limit at an input voltage in units of 10 mV: 50 A times the voltage is half that number of watts. -/
def Mod.effLimit (m : Mod) (v : Nat) : Nat :=
  min (min (m.get F.PWR_LIMIT_watts) (v / 2)) (min m.flowLimit m.inletLimit)

/-- Sets the common power target. -/
def Mod.powerTarget (m : Mod) (f : Nat) : Mod :=
  let was := m.get F.CLK_PCLK_power_mhz 0
  let m := m.each (List.range 16) fun m p => m.set F.CLK_PCLK_power_mhz p f
  let m := if was = 850 && f < 850 then m.log { st := ST_POWER_LIMIT, cls := .event, block := Blk.PWR } else m
  m.clocks

/-- POWER_SAMPLE: every 10 µs. The target falls after each 100 µs above the limit and rises after each 1 ms below 98 percent
of it. -/
def Mod.powerSample (m : Mod) (v a : Nat) : Mod :=
  let ss := (v * a :: m.pwr.samples).take 100
  let lim := m.effLimit v
  let sum := ss.sum
  -- the mean in units of 0.1 mW is sum / length
  let above := decide (lim * 10000 * ss.length < sum)
  let below := decide (sum * 100 < lim * 10000 * ss.length * 98)
  let hi := if above then m.pwr.above + 1 else 0
  let lo := if below then m.pwr.below + 1 else 0
  let m := { m with pwr := { m.pwr with samples := ss, above := hi % 10, below := lo % 100 } }
  let m := (m.set F.PWR_IN_volts_10mv 0 v).set F.PWR_IN_amps_10ma 0 a
  let m := (m.set F.PWR_IN_watts 0 (sum / (10000 * ss.length))).set F.PWR_IN_eff_limit 0 lim
  let t := m.get F.CLK_PCLK_power_mhz 0
  if 5500 < a then m.powerTarget 300
  else if hi = 10 then m.powerTarget (max 300 (t - 25))
  else if lo = 100 then m.powerTarget (min 850 (t + 25))
  else m

/-! ### Die temperature (R467) -/

/-- `ST_DIE_HOT` for die `d`. -/
def Mod.dieHot (m : Mod) (d : Nat) : Mod := m.log { st := ST_DIE_HOT, cls := .event, block := Blk.PWR, d0 := d }

/-- The level of a die after a reading: 2 from 100 °C until below 97 °C, 1 from 95 °C until below 92 °C (compute dies). -/
def dieLevelNext (d cur t : Nat) : Nat :=
  if 100 ≤ t || (cur = 2 && 97 ≤ t) then 2
  else if d < 4 && (95 ≤ t || (1 ≤ cur && 92 ≤ t)) then 1 else 0

/-- Sets the thermal target of compute die `d`. -/
def Mod.thermalTarget (m : Mod) (d f : Nat) : Mod :=
  m.each ((List.range 4).map (4 * d + ·)) fun m p => (m.set F.CLK_PCLK_thermal_mhz p f).clockSet p

/-- One die's reading. The target falls after each 1 ms at or above 95 °C and rises after each 10 ms below 92 °C. -/
def Mod.dieTemp (m : Mod) (d t : Nat) : Mod :=
  let cur := Tab.get 0 m.pwr.dieLevel d
  let new := dieLevelNext d cur t
  let hot := if 95 ≤ t then Tab.get 0 m.pwr.dieHot d + 1 else 0
  let cool := if t < 92 then Tab.get 0 m.pwr.dieCool d + 1 else 0
  let m := { m with pwr := { m.pwr with dieLevel := Tab.set 0 m.pwr.dieLevel d new,
                                        dieHot := Tab.set 0 m.pwr.dieHot d (hot % 10),
                                        dieCool := Tab.set 0 m.pwr.dieCool d (cool % 100) } }
  let m := m.set (F.PWR_TEMP_die_c d) 0 t
  let m := if new = 2 && cur != 2 then m.dieHot d else m
  if 4 ≤ d then m
  else
    let f := m.get F.CLK_PCLK_thermal_mhz (4 * d)
    if new = 2 then m.thermalTarget d 300
    else if hot = 10 then m.thermalTarget d (max 300 (f - 25))
    else if cool = 100 then m.thermalTarget d (min 850 (f + 25))
    else m

/-- DIE_TEMP_SAMPLE: the six dies, CD0 to CD3, LD0, LD1. -/
def Mod.dieTemps (m : Mod) (l : List (BitVec 8)) : Mod :=
  let l := (l.take 6).map (·.toNat)
  if l.any fun t => decide (115 ≤ t) then m.trip
  else ((List.range l.length).zip l).foldl (fun m e => m.dieTemp e.1 e.2) m

/-! ### Stack temperature (R224-R226) -/

/-- Entry threshold of a level of Table 7.5. -/
def stackEnter : Nat → Nat | 1 => 85 | 2 => 92 | 3 => 98 | _ => 105
/-- Exit value of a level. -/
def stackExit : Nat → Nat | 1 => 82 | 2 => 89 | _ => 95

/-- The level that readings leave from `cur` down; `cur` bounds the steps. -/
def stackFall (t : Nat) : Nat → Nat
  | 0 => 0
  | k + 1 => if t < stackExit (k + 1) then stackFall t k else k + 1

/-- The level after a reading, from a level up to 3. -/
def stackLevelNext (cur t : Nat) : Nat :=
  let up := if 105 ≤ t then 4 else if 98 ≤ t then 3 else if 92 ≤ t then 2 else if 85 ≤ t then 1 else 0
  if cur < up then up else stackFall t cur

/-- The hottest stack's reading and number. -/
def Mod.hottest (m : Mod) : Mod :=
  let (t, p) := (List.range 16).foldl (fun (a : Nat × Nat) p =>
    let t := m.get F.MEM_STACK_STAT_temp_c p
    if a.1 < t then (t, p) else a) (0, 0)
  (m.set F.PWR_TEMP_stack_c 0 t).set F.PWR_TEMP_stack_id 0 p

/-- A level of Table 7.5 for stack `p`. -/
def Mod.stackLevel (m : Mod) (p l : Nat) : Mod :=
  (m.set F.MEM_STACK_STAT_level p l).set F.MEM_STACK_STAT_refresh_2x p (b2n (decide (1 ≤ l)))

/-- STACK_TEMP_SAMPLE. At 105 °C the stack enters self-refresh and its partition resets, not counted (Table 7.6, R364). -/
def Mod.stackTemp (m : Mod) (p t : Nat) : Mod :=
  let m := (m.set F.MEM_STACK_STAT_temp_c p t).hottest
  if 110 ≤ t then m.trip
  else if (m.part p).selfRefresh then m
  else
    let cur := m.get F.MEM_STACK_STAT_level p
    let new := stackLevelNext cur t
    let m := m.stackLevel p new
    let m := if cur < 3 && 3 ≤ new then m.log { st := ST_STACK_HOT, cls := .event, block := Blk.MEM, part := p } else m
    if new = 4 && m.partUp p && !m.failed then
      let m := m.setPart p { m.part p with selfRefresh := true }
      (m.partLost p 2).partResetNow p 3 ST_STACK_HOT
    else m

/-- STACK_COOLED_RETURN: the partition is reset and its stack, contents kept, returns to service. -/
def Mod.stackCooled (m : Mod) (p : Nat) : Mod :=
  if (m.part p).selfRefresh && !m.failed then
    (m.stackLevel p (stackFall (m.get F.MEM_STACK_STAT_temp_c p) 3)).partReturn p
  else m

/-! ### Coolant (R470, R471) -/

/-- COOLANT_SAMPLE: every 100 ms. Flow below 1.0 L/min in two samples in a row has lasted 100 ms. -/
def Mod.coolant (m : Mod) (flow inlet outlet : Nat) : Mod :=
  let low := decide (flow < 1000)
  let was := m.pwr.lowFlow
  let m := { m with pwr := { m.pwr with cool := ((flow, inlet) :: m.pwr.cool).take 10, lowFlow := low } }
  let m := (m.set F.PWR_COOL_flow_ml 0 (m.meanFlow.getD 0)).set F.PWR_COOL_inlet_c 0 inlet
  let m := m.set F.PWR_COOL_outlet_c 0 outlet
  match m.pwr.rails with
  | .waitFlow =>
    if flow < 1500 && !m.pwr.noFlowSeen then
      ({ m with pwr := { m.pwr with noFlowSeen := true } }).log { st := ST_NO_FLOW, cls := .fatal, block := Blk.PWR }
    else m
  | .on => if low && was then (m.retain ST_NO_FLOW).railsOff .noFlow else m
  | _ => m

/-! ### Gating of partitions (R462) -/

/-- Whether partition `p` could be gated: it runs nothing and no record could issue on it. -/
def Mod.partIdle (m : Mod) (p : Nat) : Bool :=
  !m.runsOn (2 ^ p) (fun _ => true) && m.liveQueues.all fun i => !(m.qMask i).testBit p || (m.headReady i).isNone

/-- PART_CLOCK_GATE. -/
def Mod.clockGate (m : Mod) (p : Nat) : Mod :=
  if m.on F.PWR_IDLE_CFG_gate_en && m.get F.PWR_MS_CTL_state == 0 && m.partReady p && m.partIdle p then
    ((m.set F.PWR_PART_STAT_gate p 1).setPart p { m.part p with stopTime := m.time }).clockSet p
  else m

/-- PART_POWER_GATE. -/
def Mod.powerGate (m : Mod) (p : Nat) : Mod :=
  if m.on F.PWR_IDLE_CFG_gate_en && m.get F.PWR_IDLE_CFG_pg_ms != 0 && m.get F.PWR_MS_CTL_state == 0
      && m.get F.PART_STAT_state p == 2 && m.get F.PWR_PART_STAT_gate p == 1 then m.set F.PWR_PART_STAT_gate p 2
  else m

/-- The clock of a gated partition runs again, for a cause of Table 13.6. -/
def Mod.ungate (m : Mod) (p cause : Nat) : Mod :=
  let ns := m.time - (m.part p).stopTime
  ((((m.set F.PWR_PART_STAT_gate p 0).setPart p { m.part p with stopTime := 0 }).cnt (8 * p + 1) ns).resume p cause ns).clockSet p

/-- PART_WAKE. -/
def Mod.partWake (m : Mod) (p : Nat) : Mod :=
  let g := m.get F.PWR_PART_STAT_gate p
  if g ≠ 0 && m.get F.PART_STAT_state p == 2 && m.get F.PWR_MS_CTL_state == 0 && !m.failed then m.ungate p (g - 1) else m

/-! ### Module power states (R459-R461) -/

/-- The status of a request for state `t`: none but MS0 while a context is in use. -/
def Mod.msCheck (m : Mod) (t : Nat) : Status :=
  if t ≠ 0 && (List.range 64).any fun c => m.ctxState c != 0 then ST_CTX_STATE
  else if !m.on F.BOOT_STAT_ready || m.failed then ST_CTX_STATE else ST_OK

/-- Begins a transition to state `t`. Entry to MS3 takes the ports `DOWN`. -/
def Mod.msBegin (m : Mod) (t : Nat) : Mod :=
  let st := m.msCheck t
  let m := m.set F.PWR_MS_CTL_status 0 st
  if st ≠ ST_OK || t = m.get F.PWR_MS_CTL_state then m
  else
    let m := { (m.set F.PWR_MS_CTL_busy 0 1) with pwr := { m.pwr with msTo := t } }
    if t = 3 then m.portsDown else m

/-- PWR_MS_TARGET: while a transition runs the last target written waits (R460). -/
def Mod.msTarget (m : Mod) (t : Nat) : Mod :=
  let m := m.set F.PWR_MS_CTL_target 0 t
  if m.on F.PWR_MS_CTL_busy then m.set F.PWR_MS_CTL_pending 0 1 else m.msBegin t

/-- Entry to a state other than MS0: partitions are gated, their memory sides from MS2 on, and in MS3 the stacks' contents
are lost: they read as free bytes nowhere, since no access reaches them until every word has been written with zero. -/
def Mod.msEnter (m : Mod) (t : Nat) : Mod :=
  let m := m.each ((List.range 16).filter fun p => m.get F.PART_STAT_state p == 2) fun m p =>
    let m := if m.get F.PWR_PART_STAT_gate p = 0 then m.setPart p { m.part p with stopTime := m.time } else m
    m.set F.PWR_PART_STAT_gate p (if t = 1 then 1 else 2)
  if t = 1 then m else m.each (List.range 16) Mod.sideOff

/-- Every word of every stack holds zero with valid check bits (Table 14.1 step 8). -/
def Mod.zeroHbm (m : Mod) : Mod :=
  let m := { m with mem := [], poison := [] }
  m.each (List.range 16) fun m p => m.setPart p { m.part p with fill := false }

/-- Exit from MS3, to whatever state: the stacks are written with zero and the enabled ports train (R461). -/
def Mod.ms3Exit (m : Mod) : Mod :=
  m.zeroHbm.each ((List.range 8).filter fun n => m.on F.LNK_CFG_enable n && m.axisLive n) Mod.portTrain

/-- Return to MS0: the clocks run; memory sides that no context needs stay gated (R203). -/
def Mod.msLeave (m : Mod) : Mod :=
  let m := m.each (List.range 16) fun m p => m.set F.MEM_STACK_STAT_gated p 0
  (m.each ((List.range 16).filter fun p => m.get F.PART_STAT_state p == 2) fun m p => m.ungate p 5).sidesGate

/-- MS_TRANSITION_DONE: the state is in force, and a pending target is acted on. -/
def Mod.msDone (m : Mod) : Mod :=
  if !m.on F.PWR_MS_CTL_busy then m
  else
    let s := m.get F.PWR_MS_CTL_state
    let t := m.pwr.msTo
    let m := (m.set F.PWR_MS_CTL_state 0 t).set F.PWR_MS_CTL_busy 0 0
    let m := if s = 3 && t ≠ 3 then m.ms3Exit else m
    let m := if t = 0 then m.msLeave else m.msEnter t
    let m := m.clocks
    if m.on F.PWR_MS_CTL_pending then (m.set F.PWR_MS_CTL_pending 0 0).msBegin (m.get F.PWR_MS_CTL_target) else m

/-! ### Pins (R433, R468, R477): what the module drives follows from its state -/

/-- Whether the rails are latched off until the always-on domain loses power: "Off, latched" of Table 15.12. -/
def Mod.latchedOff (m : Mod) : Bool :=
  match m.pwr.rails with
  | .overvoltage | .trip | .refLoss | .noFlow => true
  | _ => false

/-- The transmitter of port `n`. -/
def Mod.portTx (m : Mod) (n : Nat) : Tx :=
  if m.pwr.rails == .off then .highImpedance
  else if !m.powered then .idle
  else match m.get F.LNK_STAT_state n with
    | 0 | 5 => .idle
    | 1 => .training
    | _ => .flits

/-- The receiver of port `n`. -/
def Mod.portRx (m : Mod) (n : Nat) : Rx :=
  if m.pwr.rails == .off then .highImpedance
  else if !m.powered || m.get F.LNK_STAT_state n == 0 then .unterminated else .terminated

/-- The balls of Table 15.12: `ALERT_N` under R433 once bring-up has reached step 5. -/
def Mod.pins (m : Mod) : Pins :=
  { alertLow := m.powered && decide (5 ≤ m.get F.BOOT_STAT_step) && m.alert
    thermtripLow := m.pwr.rails == .trip
    pwrOkLow := !m.powered
    vufen := (List.range 8).map m.portTx
    vufenRx := (List.range 8).map m.portRx
    pcie := m.powered
    sideband := m.powered || m.latchedOff
    service := m.standby
    jtag := if m.pwr.rails == .off then .highImpedance else if m.latchedOff then .pullUps else .active }

end Sys2Proof.Machine
end

