-- ==== Sys2Proof/Machine/Rules.lean ====
section
/-! DEFINITION. What a register write must satisfy (R8, R11, R12): which register an offset reaches, which values are reserved, and when
a register may be written. -/

namespace Sys2Proof.Machine

/-! ### Finding registers -/

/-- The indexes of the instance of register `r` at offset `off`. -/
def Reg.instance_ (r : Reg) (off : Nat) : Option (Nat × Nat) :=
  let d := off - r.base
  let i := if r.stride = 0 then 0 else d / r.stride
  let e := if r.stride = 0 then d else d % r.stride
  let k := if r.stride2 = 0 then 0 else e / r.stride2
  let e := if r.stride2 = 0 then e else e % r.stride2
  if r.base ≤ off && e == 0 && decide (i < r.count) && decide (k < r.count2) then some (i, k) else none

/-- The register at an offset, with its indexes. -/
def regFind (off : Nat) : Option (Reg × Nat × Nat) :=
  regMap.findSome? fun r => (r.instance_ off).map fun x => (r, x.1, x.2)

/-! ### Reserved values -/

/-- A rule on the values of bits [`lo` + `len` - 1 : `lo`] of the registers with base offset `reg`. -/
structure ValRule where
  reg : Nat
  lo : Nat
  len : Nat
  ok : Nat → Bool

/-- Whether an FP32 pattern is positive and finite. -/
def posFinite (s : Nat) : Bool := decide (0 < s) && decide (s < 0x7F800000)

/-- Whether an 8-bit word gives every axis once (R272). -/
def isOrder (x : Nat) : Bool := (List.range 4).all fun a => (List.range 4).any fun k => bits x (2 * k) 2 == a

/-- A rule on a field, alike for every index. -/
def valF (f : Fld) (ok : Nat → Bool) : ValRule := ⟨f.base, f.lo, f.len, ok⟩

/-- Between two values, both included. -/
def within (a b x : Nat) : Bool := decide (a ≤ x) && decide (x ≤ b)

/-- Rules of the registers of chapters 4 to 9. -/
def valRules0 : List ValRule :=
  [valF F.MQ_CTL_storm_pct (within 0 100),
   valF F.MQ_LOG_CFG_size_log2 (fun x => x == 0 || within 6 20 x),
   valF F.MQ_POLICY_decay_log2 (within 0 8),
   valF F.CAL_STAT_CFG_count (within 0 122880),
   valF F.MEM_ZONE_kind (within 0 2),
   valF F.MEM_SCRUB_CFG_interval_h (within 1 168),
   valF F.SC_CFG_atom_ways (within 0 4),
   valF F.LNK_CFG_max_mode (within 0 2),
   valF F.LNK_CFG_min_width (within 0 2),
   valF F.LNK_PROBE_CFG_size_log2 (within 6 20),
   valF F.RTE_SHAPE_ext_x (within 1 64),
   valF F.RTE_SHAPE_ext_y (within 1 64),
   valF F.RTE_SHAPE_ext_z (within 1 64),
   valF F.RTE_SHAPE_ext_w (within 1 64),
   valF F.RTE_SHAPE_order isOrder]
  ++ (List.range 4).map (fun a => valF (F.LNK_AXIS_VC_vc a) fun x => x == 1 || x == 3 || x == 4)
  ++ (List.range 4).map (fun a => valF (F.UPD_SPAN_len a) (within 1 64))

/-- Rules of the registers of chapters 10 to 15. -/
def valRules1 : List ValRule :=
  [valF F.STEP_CFG_spike_pol (within 0 2),
   valF F.STEP_CFG_nf_pol (within 0 2),
   valF F.STEP_CFG_storm_pol (within 1 2),
   valF F.STEP_CFG_clip_pol (within 0 2),
   valF F.STEP_CFG_ema_log2 (within 1 12),
   valF F.STEP_CFG_z_max posFinite,
   valF F.STEP_LOSS_var (fun x => x == 0 || posFinite x),
   valF F.CAST_CFG_k_int (fun x => x != 0),
   valF F.CAST_CFG_parity_k (within 2 16),
   valF F.CAST_SIZE_rec_kib (within 256 8192),
   valF F.CAST_RATE_fleet_fph (fun x => x == 0 || posFinite x),
   valF F.HANG_CTX_CFG_op_ms (within 1 10000),
   valF F.HANG_RING_CFG_size_log2 (fun x => x == 0 || within 5 16 x),
   valF F.CNT_WIN_CFG_k (within 10 30),
   valF F.CNT_WIN_CFG_size_log2 (within 2 16),
   valF F.TRC_BUF_size_log2 (fun x => x == 0 || within 20 26 x),
   valF F.TRC_HOST_PTR_size_log2 (within 1 20),
   valF F.BOOT_LEN_bytes (fun x => x % 4096 == 0 && decide (x ≤ 2 ^ 25)),
   valF F.PWR_LIMIT_watts (within 1500 3000),
   valF F.PWR_IDLE_CFG_cg_us (fun x => x != 0)]
  ++ (List.range 4).map (fun a => valF (F.CAST_SPAN_len a) (within 1 64))

/-- Every rule on values (the tables of registers; R297 is in `Mod.writeRefusal`). -/
def valRules : List ValRule := valRules0 ++ valRules1

/-- Whether bits [`lo` + `len` - 1 : `lo`] take part in a write under a mask. -/
def touched (mask lo len : Nat) : Bool := bits mask lo len != 0

/-- Whether a register's new contents hold no reserved value in a field that the write reaches. -/
def valuesOk (base mask new : Nat) : Bool :=
  valRules.all fun v => v.reg != base || !touched mask v.lo v.len || v.ok (bits new v.lo v.len)

/-! ### Registers that do not answer (R371) -/

/-- Registers of a slice or its memory controller. `MEM_STACK_STAT`, which shows that they are gated, answers (log entry 45). -/
def sideRegs : List Nat :=
  [R.SC_CFG.base, R.SC_ECC_CNT.base, R.SC_ATOM_CNT.base, R.MEM_ECC_CNT.base, R.MEM_ERR_ADDR.base, R.MEM_SCRUB_STAT.base,
   R.MEM_WASTE.base]

/-- Whether register `r`, index `i`, lies in what is in reset or power-gated: a memory side, the cores of a partition. -/
def Mod.mute (m : Mod) (r : Reg) (i : Nat) : Bool :=
  if sideRegs.contains r.base then m.get F.PART_STAT_state i == 5 || m.on F.MEM_STACK_STAT_gated i
  else r.base == R.CNT_CORE.base && (m.get F.PART_STAT_state (i / 108) == 5 || m.get F.PWR_PART_STAT_gate (i / 108) == 2)

/-- Whether an access of 4 bytes at an offset reaches a register that does not answer. -/
def Mod.muteAt (m : Mod) (off : Nat) : Bool :=
  match regFind off with
  | some (r, i, _) => m.mute r i
  | none => off % 8 == 4 && match regFind (off - 4) with | some (r, i, _) => r.bytes == 8 && m.mute r i | none => false

/-- Records an access that is not answered. -/
def Mod.noResponse (m : Mod) (off : Nat) : Mod := m.log { st := ST_NO_RESPONSE, cls := .event, block := blockOf off, d0 := off }

/-! ### When a register may be written -/

/-- Whether a span register's contents fit the shape (R297): on each axis `lo` below the extent and `len` not above it. -/
def Mod.spanFits (m : Mod) (w : Nat) : Bool :=
  (List.range 4).all fun a => decide (bits w (16 * a) 6 < m.extent a) && decide (bits w (16 * a + 6) 7 ≤ m.extent a)

/-- Registers of a context that are fixed while it is in use (R132). -/
def ctxFixed : List Nat := [R.CTX_CFG.base, R.CTX_QUOTA.base, R.CTX_FLG_RANGE.base, R.CTX_PF_CFG.base, R.CTX_PF_BASE.base]
/-- Registers of a context that are fixed while it has a step open (R298, R324). -/
def stepFixed : List Nat :=
  [R.UPD_CTL.base, R.UPD_SPAN.base, R.STEP_CFG.base, R.STEP_NF_LIMIT.base, R.STEP_FLAGS.base, R.STEP_LOSS.base, R.STEP_LOSS_CNT.base]
/-- Registers of a context that are fixed while a cast list is loaded (R356). -/
def castFixed : List Nat := [R.CAST_CFG.base, R.CAST_LIST.base, R.CAST_STORE.base, R.CAST_SIZE.base, R.CAST_SPAN.base]
/-- Bits of `CAST_CFG` that may change while a list is loaded: `k_int` and `abandon_ms`. -/
def castOpen (base : Nat) : Nat := if base = R.CAST_CFG.base then field 17 2 + field 56 41 else 0

/-- Why a write that would leave register `r`, index `i`, at `new` is ignored; `ST_OK` if it is not. `old` is what it holds. The
product of the four extents has a bound of its own (R253). -/
def Mod.writeRefusal (m : Mod) (r : Reg) (i mask old new : Nat) : Status :=
  if !valuesOk r.base mask new then
    (if r.base / 2 ^ 21 = 0xC || r.base = R.CAL_STAT_CFG.base then ST_BAD_PLAN else ST_BAD_ACCESS)
  else if (r.base = R.UPD_SPAN.base || r.base = R.CAST_SPAN.base) && !m.spanFits new then ST_BAD_ACCESS
  else if r.base = R.RTE_SHAPE.base && decide (65536 < bits new 0 7 * bits new 7 7 * bits new 14 7 * bits new 21 7) then ST_BAD_ACCESS
  else if ctxFixed.contains r.base && m.ctxState i != 0 then ST_CTX_STATE
  else if r.base = R.Q_BASE.base && m.qOn i then ST_CTX_STATE
  else if stepFixed.contains r.base && m.stepOpen i then ST_STEP_OPEN
  else if castFixed.contains r.base && (m.ctx i).castLoaded && (old ^^^ new) &&& (2 ^ 64 - 1 - castOpen r.base) != 0 then
    ST_CAST_CONFIG
  else ST_OK

/-- What a write leaves in a register's bits: those that it sets, and W1C bits cleared. -/
def Reg.next (r : Reg) (extra mask old v : Nat) : Nat :=
  let rw := (r.rw ||| extra) &&& mask
  let keep := old - (old &&& rw)
  let x := keep ||| (v &&& rw)
  x - (x &&& (v &&& mask &&& r.w1c))

end Sys2Proof.Machine
end

