-- ==== Sys2Proof/Machine/Boot.lean ====
section
/-! DEFINITION. Whole-module reset and bring-up (R368, R369, R417-R420), the configuration image (R425, R426), recovery mode (R427,
R428), persistent changes and volatile updates (R437-R440, R444, R445, R447). -/

namespace Sys2Proof.Machine

/-! ### Whole-module reset (R368, R369) -/

/-- A register, index `i`, as another state holds it. -/
def Mod.keepReg (m old : Mod) (r : Reg) (i : Nat) : Mod :=
  m.setRegAt (r.base + r.stride * i) r.reset (old.regAt (r.base + r.stride * i) r.reset)

/-- Fields of index `i` as another state holds them. -/
def Mod.keep (m old : Mod) (i : Nat) (fs : List Fld) : Mod := fs.foldl (fun m f => m.set f i (old.get f i)) m

/-- A new unlock nonce (R447, R448). -/
def Mod.newNonce (m : Mod) : Mod :=
  let (l, m) := m.drawBytes 16
  (m.set F.SEC_NONCE_nonce 0 (leNat (l.take 8))).set F.SEC_NONCE_nonce 1 (leNat (l.drop 8))

/-- What a whole-module reset leaves: flash, fuses, what is measured, and, without loss of power, the held dump (R369). `off`
says that power was removed; `cause` is `FLT_RESET_CAUSE`. -/
def Mod.wholeReset (m : Mod) (cause : Nat) (off : Bool) : Mod :=
  let b := m.boot
  let n : Mod := {
    flash := m.flash, freeN := m.freeN, out := m.out
    dump := if off then [] else m.dump
    boot := { owner := b.owner, presenceArmed := b.presenceArmed, sealWas := b.sealWas, evPerm := b.evPerm, evRoll := b.evRoll,
              evSeq := b.evSeq, calSeq := b.calSeq }
    pcie := { perst := m.pcie.perst }
    pwr := { rails := .waitFlow, retained := m.pwr.retained, cool := m.pwr.cool, lowFlow := m.pwr.lowFlow } }
  let n := n.each [R.SEC_ID.base, R.PCI_IDENT.base, R.GEO_IDENT.base, R.PWR_IN.base, R.PWR_COOL.base, R.PWR_TEMP.base,
      R.CLK_STAT.base] fun n b => match regFind b with | some (r, _, _) => n.keepReg m r 0 | none => n
  let n := n.keep m 0 [F.SEC_STAT_seal_intact, F.SEC_STAT_seal_opens, F.SEC_STAT_owned, F.SEC_STAT_perm_full, F.SEC_STAT_min_svn]
  let n := n.each (List.range 16) fun n p => n.keep m p [F.MEM_STACK_STAT_temp_c]
  let n := if off then n.newNonce
    else
      let n := (n.keepReg m R.SEC_NONCE 0).keepReg m R.SEC_NONCE 1
      (n.keepReg m R.DUMP_STAT 0).set F.DUMP_STAT_busy 0 0
  (n.set F.FLT_RESET_CAUSE_cause 0 cause).set F.BOOT_STAT_step 0 1

/-- MODULE_RESET: a write of `FLT_RESET`. -/
def Mod.moduleReset (m : Mod) (v : Nat) : Mod :=
  if bits v 0 16 ≠ 0xA5C3 then m.refuse ST_BAD_ACCESS Blk.FLT 0x18
  else if v.testBit 16 then m.wholeReset 1 false else m

/-- POWER_ON: the input rises through 60 V with no latch set (R452, R468). -/
def Mod.powerOn (m : Mod) : Mod :=
  match m.pwr.rails with
  | .off | .waitFlow => m.wholeReset 0 true
  | _ => m

/-- BROWNOUT_RETURN: the input rises through 60 V again before it fell below 40 V (Table 15.2). -/
def Mod.brownoutReturn (m : Mod) : Mod := if m.pwr.rails == .brownout then m.wholeReset 2 true else m

/-! ### The configuration image (R425, R426) -/

/-- Fields that only the configuration image writes. -/
def cfgOnly (base : Nat) : Nat :=
  if base = R.RTE_SHAPE.base then field 43 0 else if base = R.RTE_PIN.base then field 24 0 else 0

/-- Registers with a `cfg` field. -/
def cfgRegs : List Nat :=
  [R.MEM_ZONE.base, R.LNK_CFG.base, R.RTE_SHAPE.base, R.RTE_PIN.base, R.PART_CTL.base, R.PWR_LIMIT.base]

/-- Whether an offset lies in a block whose RW registers a record may write: `PWR_`, `CLK_`, `HANG_`, `CNT_`, `TRC_`, `MEM_`, `SC_`,
`LNK_`, `RTE_`. -/
def cfgBlock (off : Nat) : Bool :=
  within 0x10000 0x2FFFF off || within 0x60000 0x6FFFF off || within 0x100000 0x1BFFFF off || within 0x400000 0x7FFFFF off
  || within 0x2000000 0x27FFFFF off

/-- One record on a module: none if it makes the image invalid. A `reset` of a partition that is off, a power state other than
MS0 before the module is ready, and an automatic detour entry would be ignored or refused. -/
def Mod.cfgRecord (m : Mod) (off rsv v : Nat) : Option Mod :=
  match regFind off with
  | none => none
  | some (r, i, _) =>
    let mask := 2 ^ (8 * r.bytes) - 1
    let old := m.regAt off r.reset
    let new := r.next (cfgOnly r.base) mask old v
    let allowed := cfgRegs.contains r.base || (cfgBlock off && r.rw != 0)
    if off % 8 ≠ 0 || rsv ≠ 0 || !allowed || mask < v || v &&& r.rsv ≠ 0 then none
    else if m.writeRefusal r i mask old new ≠ ST_OK then none
    else if (r.base = R.PART_CTL.base && v.testBit 1) || (r.base = R.PWR_MS_CTL.base && v % 4 ≠ 0)
        || (r.base = R.RTE_DETOUR.base && 224 ≤ i) then none
    else some (m.setRegAt off r.reset new)

/-- Applies records in order from index `k`: the module, or the index and offset of the first that fails. -/
def Mod.cfgApply (m : Mod) (k : Nat) : List (List Byte) → Except (Nat × Nat) Mod
  | [] => .ok m
  | l :: t =>
    match m.cfgRecord (leNat (l.take 4)) (leNat (slice l 4 4)) (leNat (slice l 8 8)) with
    | some m => m.cfgApply (k + 1) t
    | none => .error (k, leNat (l.take 4))

/-- Cuts a list into pieces of `n`; `k` bounds their number. -/
def cut {α : Type} (n : Nat) : Nat → List α → List (List α)
  | 0, _ => []
  | k + 1, l => if l.isEmpty then [] else l.take n :: cut n k (l.drop n)

/-- The Armature applies a configuration image at step 5. -/
def Mod.configure (m : Mod) (x : Status × List Byte) : Mod :=
  let st := m.verified x [2] 0
  if st ≠ ST_OK then m.set F.BOOT_STAT_cfg_status 0 st
  else
    let body := slice x.2 0x400 (Ih.length x.2)
    match m.cfgApply 0 (cut 16 (body.length / 16 + 1) body) with
    | .error (k, off) =>
      (m.log { st := ST_BAD_ACCESS, cls := .refused, block := off / 2 ^ 16, d0 := k, d1 := off }).set F.BOOT_STAT_cfg_status 0
        ST_BAD_ACCESS
    | .ok m' =>
      let m' := m'.zoneCommit
      let zs := m'.get F.MEM_ZONE_CTL_status
      if zs ≠ ST_OK then m.set F.BOOT_STAT_cfg_status 0 zs
      else { (m'.set F.BOOT_STAT_cfg_ver 0 (Ih.ver x.2)) with boot := { m'.boot with config := some (imageOf x.2) } }

/-! ### Bring-up (R417, R419, R427, R428) -/

/-- An image in the flash, in an area of `cap` bytes. -/
def Mod.flashImage (m : Mod) (off cap : Nat) : Status × List Byte :=
  let h := flashRead m.flash off 1024
  if !headerOk h || cap < 1024 + Ih.length h then (ST_SIG_INVALID, [])
  else (ST_OK, flashRead m.flash off (1024 + Ih.length h))

/-- An initial image that a firmware payload carries (R421). -/
def initialOf (payload : List Byte) (kind : Nat) : Image :=
  { ver := Config.initialImage payload kind 0 % 2 ^ 16, svn := Config.initialImage payload kind 1 % 2 ^ 32,
    digest := BitVec.ofNat 256 (Config.initialImage payload kind 2) }

/-- Copies the retained records into the persistent event log (R453, R468). -/
def Mod.copyRetained (m : Mod) : Mod :=
  let m' := m.pwr.retained.foldl Mod.evRolling m
  { m' with pwr := { m'.pwr with retained := [] } }

/-- Step 5 with a verified firmware image and a configuration image: the Armature runs. Steps 6 and 7 begin: enabled partitions
power up and enabled ports train. -/
def Mod.armatureUp (m : Mod) (fw : List Byte) (cfg : Status × List Byte) : Mod :=
  let payload := slice fw 0x400 (Ih.length fw)
  let m := { m with boot := { m.boot with
    firmware := some (imageOf fw), armature := initialOf payload 4, link0 := initialOf payload 5, link1 := initialOf payload 5 } }
  let m := m.each (List.range 16) fun m p => m.setPart p { m.part p with ucode := initialOf payload 3 }
  let m := (m.set F.BOOT_STAT_fw_ver 0 (Ih.ver fw)).copyRetained.configure cfg
  let m := (m.set F.BOOT_STAT_cal_valid 0 (b2n (m.boot.calSeq != 0))).set F.BOOT_STAT_step 0 5
  let m := m.each ((List.range 16).filter fun p => m.on F.PART_CTL_enable p) fun m p => m.set F.PART_STAT_state p 1
  m.each ((List.range 8).filter fun n => m.on F.LNK_CFG_enable n && m.axisLive n) Mod.portTrain

/-- The boot ROM enters recovery mode. -/
def Mod.enterRecovery (m : Mod) : Mod :=
  let m := (m.set F.BOOT_STAT_recovery 0 1).set F.BOOT_STAT_step 0 3
  let m := { m with pcie := { m.pcie with bar4Log2 := 25 } }
  m.log { st := ST_RECOVERY_MODE, cls := .event, block := Blk.BOOT }

/-- What the module measures or reads from fuses as its rails come up: identity, slot, clocks. -/
def Mod.identify (m : Mod) : Mod :=
  let m := (m.set F.SEC_ID_identity 0 (Config.fused 0)).set F.GEO_IDENT_stepping 0 (Config.fused 1)
  let m := m.set F.PCI_IDENT_vendor 0 (Config.fused 2)
  let (a, m) := m.draw
  let (b, m) := m.draw
  let m := (m.set F.PCI_IDENT_slot_id 0 (Config.freeNat a)).set F.CLK_STAT_pcie_refclk 0 (Config.freeNat b)
  let m := (m.set F.CLK_STAT_ref_ok 0 1).set F.CLK_STAT_fclk_lock 0 0xF
  (m.set F.CLK_STAT_xclk_lock 0 1).set F.CLK_STAT_eclk_lock 0 1

/-- FLOW_CONFIRMED: steps 2 to 5. -/
def Mod.flowConfirmed (m : Mod) : Mod :=
  if m.pwr.rails != .waitFlow then m
  else
    let m := ({ m with pwr := { m.pwr with rails := .on, noFlowSeen := false } }).identify
    let fw := m.flashImage 0x10000 (2 ^ 25)
    if leNat (flashRead m.flash 0 4) ≠ 0x9E17B007 || m.verified fw [1] (m.get F.SEC_STAT_min_svn) ≠ ST_OK then m.enterRecovery
    else m.armatureUp fw.2 (m.flashImage 0x2010000 (2 ^ 20))

/-- A partition that failed self-test, or whose stack failed training (R419). -/
def Mod.partFailed (m : Mod) (p : Nat) : Mod :=
  let m := (m.set F.PART_STAT_state p 6).setPart p { m.part p with selfTestFailed := true }
  m.log { st := ST_PART_DOWN, cls := .contained, block := Blk.PART, part := p, d0 := 1 }

/-- Training in full, without valid seeds or after a whole-module reset, finds new seeds (Table 14.1 step 8, R423). -/
def Mod.seedsNew (m : Mod) : Mod :=
  if !m.on F.BOOT_STAT_cal_valid || m.get F.FLT_RESET_CAUSE_cause != 0 then m.calNew else m

/-- BRINGUP_READY: steps 8 to 10. -/
def Mod.bringupReady (m : Mod) (failed : Nat) : Mod :=
  if !m.powered || m.get F.BOOT_STAT_step != 5 || m.on F.BOOT_STAT_ready then m
  else
    let m := m.zeroHbm.seedsNew
    let m := m.each ((List.range 16).filter fun p => failed.testBit p) Mod.partFailed
    let m := m.each ((List.range 16).filter fun p => m.on F.PART_CTL_enable p && !failed.testBit p) Mod.partRun
    let m := m.set F.CLK_STAT_pclk_lock 0 ((((List.range 16).filter fun p => m.on F.PART_CTL_enable p).map (2 ^ ·)).sum)
    let m := ((m.set F.BOOT_STAT_ready 0 1).set F.BOOT_STAT_step 0 10).sidesGate.clocks.msix 0 1
    if (List.range 8).all fun n => m.get F.LNK_STAT_state n == 0 then m.takeRoot else m

/-! ### The persistent event log's permanent area (R424) -/

/-- Slots of the permanent area. -/
def permSlots : Nat := 16 * 2047

/-- Writes a permanent record; the last slot but one makes the module write `ST_LOCKED` in the last. -/
def Mod.evPermanent (m : Mod) (st : Status) : Mod :=
  let put (m : Mod) (st : Status) : Mod :=
    let m := m.evAppend 0 1 m.boot.evPerm (({ st := st, cls := .event, block := Blk.SEC } : Rep).word m.time m.flogSeq)
    { m with boot := { m.boot with evPerm := m.boot.evPerm + 1 } }
  if permSlots ≤ m.boot.evPerm then m
  else
    let m := put m st
    if m.boot.evPerm + 1 = permSlots then (put m ST_LOCKED).set F.SEC_STAT_perm_full 0 1 else m

/-! ### Presence and seal (R437, R438) -/

/-- Whether the presence window is open. -/
def Mod.present (m : Mod) : Bool := m.on F.SEC_STAT_presence

/-- Seconds left in the window. -/
def Mod.windowLeft (m : Mod) : Nat :=
  match m.boot.presenceOpen with
  | some t => if m.present then 600 - min 600 ((m.time - t) / 10 ^ 9) else 0
  | none => 0

/-- The window closes. -/
def Mod.windowClose (m : Mod) : Mod :=
  if m.present then
    ({ ((m.set F.SEC_STAT_presence 0 0).set F.SEC_STAT_window_s 0 0) with boot := { m.boot with presenceOpen := none } }).msix 0 1
  else m

/-- PRESENCE_ASSERT. -/
def Mod.presenceAssert (m : Mod) : Mod :=
  if m.standby && m.boot.presenceArmed then
    let m := { m with boot := { m.boot with presenceArmed := false, presenceOpen := some m.time } }
    ((m.set F.SEC_STAT_presence 0 1).set F.SEC_STAT_window_s 0 600).msix 0 1
  else m

/-- PRESENCE_RELEASE. -/
def Mod.presenceRelease (m : Mod) : Mod :=
  let m := m.windowClose
  { m with boot := { m.boot with presenceArmed := true } }

/-- PRESENCE_EXPIRY. -/
def Mod.presenceExpiry (m : Mod) : Mod := m.windowClose

/-- SEAL_CHECK. -/
def Mod.sealCheck (m : Mod) (intact : Bool) : Mod :=
  if !m.standby then m
  else
    let was := m.boot.sealWas
    let m := { (m.set F.SEC_STAT_seal_intact 0 (b2n intact)) with boot := { m.boot with sealWas := intact } }
    if was && !intact then
      ((m.evPermanent ST_SEAL_OPEN).bump F.SEC_STAT_seal_opens 0 1).set F.SEC_STAT_seal_opened 0 1
    else m

/-! ### `BOOT_CMD` (R422, R428, R439, R440, R444, R445) -/

/-- Whether the staging SRAM serves a microcode load. -/
def Mod.stagingBusy (m : Mod) : Bool := m.on F.PART_UCODE_CMD_busy

/-- A command of `BOOT_CMD` ends. -/
def Mod.bootEnd (m : Mod) (st : Status) : Mod := (m.set F.BOOT_CMD_status 0 st).msix 0 1

/-- Runs a command of `BOOT_CMD` unless the staging SRAM is in use. -/
def Mod.bootRun (m : Mod) (f : Mod → Status × Mod) : Mod :=
  if m.stagingBusy then m.bootEnd ST_BUSY else let (st, m') := f m; m'.bootEnd st

/-- Rewrites an area of the flash with an image: erased, then written. -/
def Mod.flashPut (m : Mod) (off cap : Nat) (l : List Byte) : Mod :=
  { m with flash := flashWrite (m.flash.clear off (off + cap)) off l }

/-- The image that a command names, if it passes R421 and fits an area of `cap` bytes. -/
def Mod.bootImage (m : Mod) (kinds : List Nat) (least cap : Nat) (first : Bool := false) : Except Status (List Byte) :=
  let x := m.bootObject
  let st := m.verified x kinds least first
  if st ≠ ST_OK then .error st
  else if cap < 1024 + Ih.length x.2 then .error ST_SIG_INVALID
  else .ok (imageBytes x.2)

/-- The minimum SVN of a volatile update (Table 14.4): that of the image running in the target. -/
def Mod.volatileLeast (m : Mod) (kind : Nat) (target : Bool) : Nat :=
  if kind = 4 then m.boot.armature.svn else if kind = 5 then (if target then m.boot.link1.svn else m.boot.link0.svn) else 0

/-- Whether an hour has gone by since calibration records were last written (R423). -/
def Mod.calDue (m : Mod) : Bool := match m.boot.calStamp with | some t => decide (t + 3600 * 10 ^ 9 ≤ m.time) | none => true

/-- Writes calibration records to the half that does not hold the newer copy; their layout is not given, so the half's bytes
are free (R423). -/
def Mod.calWrite (m : Mod) : Mod :=
  let n := 4 * 2 ^ 20
  let off := 0x2110000 + (if m.boot.calSeq % 2 = 1 then n else 0)
  let (l, m) := m.drawBytes n
  { m with flash := flashWrite m.flash off l,
           boot := { m.boot with calSeq := m.boot.calSeq + 1, calStamp := some m.time, calChanged := false } }

/-- CALIBRATION_RECORD_WRITE. -/
def Mod.calRecord (m : Mod) : Mod := if m.powered && m.boot.calChanged && m.calDue then m.calWrite else m

/-- BOOT_VOLATILE_UPDATE: op 1. Calibration records reach the flash only with `persist` and presence (R444). -/
def Mod.bootVolatile (m : Mod) (target persist : Bool) : Mod :=
  m.bootRun fun m =>
    let m := m.bootReach
    let x := m.bootObject
    let kind := Ih.kind x.2
    let st := m.verified x [4, 5, 6] (m.volatileLeast kind target)
    let im := imageOf x.2
    if st ≠ ST_OK then (st, m)
    else if kind = 4 then (ST_OK, { m with boot := { m.boot with armature := im } })
    else if kind = 5 then
      (ST_OK, { m with boot := if target then { m.boot with link1 := im } else { m.boot with link0 := im } })
    else if persist && m.present then (ST_OK, m.calWrite)
    else (ST_OK, m)

/-- BOOT_WRITE_FIRMWARE: op 2. -/
def Mod.bootFirmware (m : Mod) : Mod :=
  m.bootRun fun m =>
    if !m.present then (ST_NO_PRESENCE, m)
    else
      let m := m.bootReach
      match m.bootImage [1] (m.get F.SEC_STAT_min_svn) (2 ^ 25) with
      | .error st => (st, m)
      | .ok l => (ST_OK, m.flashPut 0x10000 (2 ^ 25) l)

/-- BOOT_WRITE_CONFIG: op 3. -/
def Mod.bootConfig (m : Mod) : Mod :=
  m.bootRun fun m =>
    if !m.present then (ST_NO_PRESENCE, m)
    else
      let m := m.bootReach
      match m.bootImage [2] 0 (2 ^ 20) with
      | .error st => (st, m)
      | .ok l => (ST_OK, m.flashPut 0x2010000 (2 ^ 20) l)

/-- BOOT_ERASE_LOG: op 4, the rolling area. -/
def Mod.bootErase (m : Mod) : Mod :=
  m.bootRun fun m =>
    if !m.present then (ST_NO_PRESENCE, m)
    else (ST_OK, { m with flash := m.flash.clear (evSector 16) (evSector 256), boot := { m.boot with evRoll := 0 } })

/-- BOOT_RECOVERY_RUN: op 5; bring-up continues from step 5. -/
def Mod.bootRecover (m : Mod) : Mod :=
  m.bootRun fun m =>
    if !m.inRecovery then (ST_CTX_STATE, m)
    else
      let m := m.bootReach
      match m.bootImage [1] (m.get F.SEC_STAT_min_svn) (2 ^ 25) with
      | .error st => (st, m)
      | .ok l =>
        let cfg := match m.boot.recoveryCfg with | some c => (ST_OK, c) | none => m.flashImage 0x2010000 (2 ^ 20)
        (ST_OK, ({ m with pcie := { m.pcie with bar4Log2 := 34 } }).armatureUp l cfg)

/-- BOOT_RECOVERY_CONFIG: op 6. -/
def Mod.bootRecoverCfg (m : Mod) : Mod :=
  m.bootRun fun m =>
    if !m.inRecovery then (ST_CTX_STATE, m)
    else
      let m := m.bootReach
      match m.bootImage [2] 0 (2 ^ 25) with
      | .error st => (st, m)
      | .ok l => (ST_OK, { m with boot := { m.boot with recoveryCfg := some l } })

/-- BOOT_COPY_FLASH: op 7, from a flash offset in units of 4 KiB to `BOOT_IMG_ADDR`, in the staging SRAM in recovery mode. -/
def Mod.bootCopy (m : Mod) (flashOff : Nat) : Mod :=
  m.bootRun fun m =>
    let n := m.get F.BOOT_LEN_bytes
    let dst := m.get F.BOOT_IMG_ADDR_addr * 1024
    let src := flashOff * 4096
    if 2 ^ 27 < src + n || (if m.inRecovery then 2 ^ 25 else 2 ^ 40) < dst + n then (ST_BAD_ACCESS, m)
    else
      let l := flashRead m.flash src n
      if m.inRecovery then (ST_OK, m.stagingWrite (atAddr dst l))
      else (ST_OK, m.each (List.range (n / 4096)) fun m k => m.wrInt (dst + 4096 * k) (slice l (4096 * k) 4096))

/-! ### `SEC_CMD` (R439, R447) -/

/-- Runs a command of `SEC_CMD` unless the staging SRAM is in use. -/
def Mod.secRun (m : Mod) (f : Mod → Status × Mod) : Mod :=
  let end_ (m : Mod) (st : Status) : Mod := (m.set F.SEC_CMD_status 0 st).msix 0 1
  if m.stagingBusy then end_ m ST_BUSY else let (st, m') := f m; end_ m' st

/-- Why an identity operation is refused before its object is looked at; `owned` says whether an owner key must be in force. -/
def Mod.identityRefusal (m : Mod) (owned : Bool) : Status :=
  if m.on F.SEC_STAT_perm_full then ST_LOCKED
  else if !m.present then ST_NO_PRESENCE
  else if !m.on F.SEC_STAT_seal_intact then ST_SEAL_OPEN
  else if m.boot.owner.isSome != owned then ST_ACCESS_DENIED else ST_OK

/-- Sets the owner key hash, and records the operation permanently. -/
def Mod.setOwner (m : Mod) (h : Option W256) : Mod :=
  (({ m with boot := { m.boot with owner := h } }).set F.SEC_STAT_owned 0 (b2n h.isSome)).evPermanent ST_OK

/-- The hash of a modulus. -/
def keyHash (modulus : List Byte) : W256 := BitVec.ofNat 256 (leNat (sha256 modulus))

/-- SEC_PROVISION_OWNER: op 1. -/
def Mod.secProvision (m : Mod) : Mod :=
  m.secRun fun m =>
    let st := m.identityRefusal false
    if st ≠ ST_OK then (st, m)
    else
      let m := m.bootReach
      match m.bootImage [8] 0 (2 ^ 25) true with
      | .error st => (st, m)
      | .ok l => (ST_OK, m.setOwner (some (keyHash (slice l 0x400 384))))

/-- SEC_REPLACE_OWNER: op 2; a payload of zeros removes the key. -/
def Mod.secReplace (m : Mod) : Mod :=
  m.secRun fun m =>
    let st := m.identityRefusal true
    if st ≠ ST_OK then (st, m)
    else
      let m := m.bootReach
      match m.bootImage [8] 0 (2 ^ 25) with
      | .error st => (st, m)
      | .ok l =>
        let key := l.drop 0x400
        if key.all (· == 0) then (ST_OK, m.setOwner none)
        else if key.length ≠ 384 then (ST_SIG_INVALID, m)
        else (ST_OK, m.setOwner (some (keyHash key)))

/-- SEC_WRITE_CHAIN: op 3. -/
def Mod.secChain (m : Mod) : Mod :=
  m.secRun fun m =>
    let st := m.identityRefusal true
    if st ≠ ST_OK then (st, m)
    else
      let m := m.bootReach
      match m.bootImage [9] 0 (2 ^ 16) with
      | .error st => (st, m)
      | .ok l => (ST_OK, (m.flashPut 0x2910000 (2 ^ 16) l).evPermanent ST_OK)

/-- Whether a token's payload names this module and its nonce, with a legal scope (R447). -/
def Mod.tokenFits (m : Mod) (l : List Byte) : Bool :=
  l.length == 32 && leNat (slice l 0 8) == m.get F.SEC_ID_identity && leNat (slice l 8 8) == m.get F.SEC_NONCE_nonce 0
  && leNat (slice l 16 8) == m.get F.SEC_NONCE_nonce 1 && decide (leNat (slice l 24 4) < 16) && leNat (slice l 28 4) == 0

/-- SEC_DEBUG_UNLOCK: op 4. -/
def Mod.secUnlock (m : Mod) : Mod :=
  m.secRun fun m =>
    if m.on F.SEC_STAT_perm_full then (ST_LOCKED, m)
    else if !m.present then (ST_NO_PRESENCE, m)
    else
      let m := m.bootReach
      match m.bootImage [7] 0 (2 ^ 25) with
      | .error st => (if st = ST_SIG_INVALID || st = ST_HASH_MISMATCH then ST_UNLOCK_INVALID else st, m)
      | .ok l =>
        let t := l.drop 0x400
        if !m.tokenFits t then (ST_UNLOCK_INVALID, m)
        else
          let scope := leNat (slice t 24 4)
          let m := { m with boot := { m.boot with debug := scope } }
          (ST_OK, ((m.set F.SEC_STAT_debug_state 0 scope).newNonce).evPermanent ST_OK)

/-- SEC_DEBUG_RELOCK: op 5. -/
def Mod.secRelock (m : Mod) : Mod :=
  m.secRun fun m =>
    (ST_OK, (({ m with boot := { m.boot with debug := 0 } }).set F.SEC_STAT_debug_state 0 0).newNonce)

/-- SEC_RAISE_MIN_SVN: op 6. -/
def Mod.secRaise (m : Mod) : Mod :=
  m.secRun fun m =>
    if !m.present then (ST_NO_PRESENCE, m)
    else match m.boot.firmware with
      | none => (ST_CTX_STATE, m)
      | some im => (ST_OK, m.set F.SEC_STAT_min_svn 0 (max im.svn (m.get F.SEC_STAT_min_svn)))

end Sys2Proof.Machine
end

