-- ==== Sys2Proof/Machine/Attest.lean ====
section
/-! DEFINITION. The PCIe side (R429-R433, R446) and what answers from outside: sideband, SPDM and DOE (R435, R436, R441-R443). -/

namespace Sys2Proof.Machine

/-! ### PCIe resets and functions (R431, R432) -/

/-- Contexts in use that are bound to a VF, or to the VF given. -/
def Mod.vfContexts (m : Mod) (v : Option Nat) : List Nat :=
  (List.range 64).filter fun c => m.ctxState c == 1 && m.on F.CTX_CFG_vf_bound c && (match v with
    | some v => m.get F.CTX_CFG_vf c == v
    | none => true)

/-- The link goes down: outstanding host requests end (R229) and contexts bound to a VF are torn down. -/
def Mod.pcieDown (m : Mod) : Mod :=
  let m := { (m.setRegAt R.PCI_LINK.base 0 0) with pcie := { m.pcie with link := false } }
  let m := (m.pcie.reqs.map (·.tag)).foldl Mod.hostFailed m
  m.each (m.vfContexts none) Mod.ctxTeardown

/-- PERST_ASSERT: the controller, every configuration space and the MSI-X tables are reset. -/
def Mod.perstAssert (m : Mod) : Mod :=
  let m := if m.powered then m.pcieDown else m
  { m with pcie := { perst := true, bar4Log2 := if m.inRecovery then 25 else 34, nextTag := m.pcie.nextTag } }

/-- PERST_DEASSERT. -/
def Mod.perstDeassert (m : Mod) : Mod := { m with pcie := { m.pcie with perst := false } }

/-- PCIE_LINK_DOWN. -/
def Mod.pcieLinkDown (m : Mod) : Mod := if m.powered && m.pcie.link then m.pcieDown else m

/-- The largest payload or request that configuration software may set: 128 bytes times a power of two, at most `top`. -/
def pcieBytes (top k : Nat) : Nat := min top (128 * 2 ^ min k 5)

/-- PCIE_LINK_UP: at a generation and width that its partner permits; what the configuration requests that follow set is free (DESIGN
CHOICE, log entry 8). -/
def Mod.pcieLinkUp (m : Mod) : Mod :=
  if !m.powered || m.pcie.perst || m.pcie.link || m.boot.jtag then m
  else
    let (k, m) := m.draw
    let g := Config.freeNat k
    let cfg := Config.pcieSetup k
    let m := (m.set F.PCI_LINK_gen 0 (1 + g % 7)).set F.PCI_LINK_width 0 (2 ^ (g / 7 % 5))
    let m := m.set F.PCI_LINK_flit 0 (g / 35)
    let fns (l : List (Fin 65)) : Tab Bool := l.foldl (fun t f => Tab.set false t f.val true) []
    { m with pcie := { m.pcie with link := true, busMasterOff := fns cfg.noMaster, relaxed := fns cfg.relaxed,
                                   maxPayload := pcieBytes 512 cfg.payload, maxRead := pcieBytes 4096 cfg.readReq } }

/-- Clears the MSI-X table and pending bits of a function (0 PF0, v + 1 VF v). -/
def Pcie.clearMsix (p : Pcie) (fn : Nat) : Pcie :=
  { p with unmasked := p.unmasked.clear (16 * fn) (16 * fn + 16), msixPend := p.msixPend.clear (16 * fn) (16 * fn + 16) }

/-- Whether VF `v` exists. -/
def Mod.vfHere (m : Mod) (v : Nat) : Bool := m.powered && m.pcie.link && m.pcie.vfEnable && decide (v < m.pcie.numVfs)

/-- FLR_VF. -/
def Mod.flrVf (m : Mod) (v : Nat) : Mod :=
  if !m.vfHere v then m
  else
    let m := m.each (m.vfContexts (some v)) Mod.ctxTeardown
    { m with pcie := m.pcie.clearMsix (v + 1) }

/-- FLR_PF0: the configuration space of PF0 is initialised again, the size of BAR4 and its control registers with it (R20, R432). -/
def Mod.flrPf0 (m : Mod) : Mod :=
  if !m.powered || !m.pcie.link then m
  else
    let m := { m with pcie := { (m.pcie.clearMsix 0) with
      vfEnable := false, numVfs := 0, bar4Log2 := if m.inRecovery then 25 else 34, maxPayload := 512, maxRead := 512,
      busMasterOff := Tab.set false m.pcie.busMasterOff 0 false, relaxed := Tab.set false m.pcie.relaxed 0 false } }
    let m := m.each ((List.range 64).filter fun c => m.ctxState c == 1) Mod.ctxTeardown
    m.set F.FLT_IRQ_EN_en 0 0

/-- VF_ENABLE: TotalVFs is 64; recovery mode exposes no SR-IOV capability (R427). -/
def Mod.vfEnable (m : Mod) (on : Bool) (num : Nat) : Mod :=
  if m.powered && m.pcie.link && !m.inRecovery && num ≤ 64 then
    { m with pcie := { m.pcie with vfEnable := on, numVfs := if on then num else 0 } }
  else m

/-- Vectors of a function (Table 14.8). -/
def vectors (fn : Nat) : Nat := if fn = 0 then 3 else 1

/-- MSIX_UNMASK. -/
def Mod.msixUnmask (m : Mod) (fn vec : Nat) : Mod :=
  let k := fn * 16 + vec
  if !m.powered || !m.pcie.link || vectors fn ≤ vec || (fn != 0 && !m.vfHere (fn - 1)) then m
  else
    let due := Tab.get false m.pcie.msixPend k
    let m := { m with pcie := { m.pcie with unmasked := Tab.set false m.pcie.unmasked k true,
                                            msixPend := Tab.set false m.pcie.msixPend k false } }
    if due then m.emit (.msix fn vec) else m

/-- JTAG_BOUNDARY_SELECT: every port is treated as `DOWN` and the PCIe link as down (R446). -/
def Mod.jtagSelect (m : Mod) : Mod :=
  let m := { m with boot := { m.boot with jtag := true } }
  if !m.powered then m
  else
    let live := (List.range 8).filter m.carries0
    let m := m.each ((List.range 8).filter fun n => m.get F.LNK_STAT_state n != 0) fun m n => m.portOff n 5
    let m := m.each live fun m n => m.noticeOf n 5 0
    if m.pcie.link then m.pcieDown else m

/-! ### Measurements (R443) -/

/-- Bytes of a digest. -/
def digestBytes (d : W256) : List Byte := leBytes 32 d.toNat

/-- Digest of the firmware in force, of the staged image in recovery mode. -/
def Mod.firmwareDigest (m : Mod) : List Byte :=
  match m.boot.firmware with
  | some im => digestBytes im.digest
  | none => let x := m.bootObject; if x.1 = ST_OK then sha256 (imageBytes x.2) else List.replicate 32 0

/-- The security state of block 23, in the order of Table 14.10. -/
def Mod.securityState (m : Mod) : List Byte :=
  leBytes 1 (m.get F.BOOT_STAT_recovery) ++ leBytes 1 (b2n m.boot.owner.isSome) ++ digestBytes (m.boot.owner.getD 0)
  ++ leBytes 1 (m.get F.SEC_STAT_debug_state) ++ leBytes 1 (m.get F.SEC_STAT_seal_opened)
  ++ leBytes 1 (m.get F.SEC_STAT_seal_opens) ++ leBytes 4 (m.get F.SEC_STAT_min_svn)

/-- The digest of measurement block `k` (Table 14.10). -/
def Mod.measurement (m : Mod) (k : Nat) : List Byte :=
  match k with
  | 1 => digestBytes Config.bootRomDigest
  | 2 => m.firmwareDigest
  | 3 => match m.boot.config with | some im => digestBytes im.digest | none => List.replicate 32 0
  | 4 => digestBytes m.boot.armature.digest
  | 5 => digestBytes m.boot.link0.digest
  | 6 => digestBytes m.boot.link1.digest
  | 23 => sha256 m.securityState
  | k => digestBytes (m.part (k - 7)).ucode.digest

/-- Type of a measurement in the DMTF format: 0 ROM, 1 firmware, 2 hardware configuration, 3 firmware configuration. -/
def measureType : Nat → Nat | 1 => 0 | 3 => 3 | 23 => 2 | _ => 1

/-- Measurement block `k` in the DMTF format. -/
def Mod.measureBlock (m : Mod) (k : Nat) : List Byte :=
  leBytes 1 k ++ leBytes 1 1 ++ leBytes 2 35 ++ leBytes 1 (measureType k) ++ leBytes 2 32 ++ m.measurement k

/-! ### SPDM (R441, R442): message bodies from the response code on (log entry 70) -/

/-- Whether the sideband serves: rails up, or latched off (Table 15.12). -/
def Mod.serves (m : Mod) : Bool := m.powered || m.latchedOff

/-- Whether a request on a transport reaches the module. -/
def Mod.hears (m : Mod) (ch : Chan) : Bool := match ch with | .doe => m.powered && m.pcie.link | .mctp => m.serves

def Mod.spdmOf (m : Mod) (ch : Chan) : Spdm := match ch with | .doe => m.boot.spdmDoe | .mctp => m.boot.spdmMctp
def Mod.setSpdm (m : Mod) (ch : Chan) (s : Spdm) : Mod :=
  match ch with
  | .doe => { m with boot := { m.boot with spdmDoe := s } }
  | .mctp => { m with boot := { m.boot with spdmMctp := s } }

/-- A response: code, two parameters, body. -/
def Mod.reply (m : Mod) (ch : Chan) (code p1 p2 : Nat) (body : List Byte) : Mod :=
  m.emit (.spdm ch (leBytes 1 code ++ leBytes 1 p1 ++ leBytes 1 p2 ++ body))

/-- `ERROR` with an error code: 1 InvalidRequest, 4 UnexpectedRequest, 7 UnsupportedRequest. -/
def Mod.spdmError (m : Mod) (ch : Chan) (e data : Nat) : Mod := m.reply ch 0x7F e data []

/-- Runs an answer if the transport carries the request and its negotiation has come far enough. -/
def Mod.spdmAt (m : Mod) (ch : Chan) (ok : Spdm → Bool) (f : Mod → Mod) : Mod :=
  if !m.hears ch then m else if ok (m.spdmOf ch) then f m else m.spdmError ch 4 0

/-- GET_VERSION: 1.2 and 1.3; the negotiation of the transport begins anew. -/
def Mod.getVersion (m : Mod) (ch : Chan) : Mod :=
  m.spdmAt ch (fun _ => true) fun m =>
    (m.setSpdm ch { version := true }).reply ch 0x04 0 0 (leBytes 1 0 ++ leBytes 1 2 ++ leBytes 2 0x1200 ++ leBytes 2 0x1300)

/-- GET_CAPABILITIES: certificates, challenge, measurements with signature; times and sizes are free. -/
def Mod.getCapabilities (m : Mod) (ch : Chan) : Mod :=
  m.spdmAt ch (·.version) fun m =>
    let (l, m) := m.drawBytes 9
    (m.setSpdm ch { m.spdmOf ch with caps := true }).reply ch 0x61 0 0
      (leBytes 1 0 ++ l.take 1 ++ leBytes 2 0 ++ leBytes 4 0x16 ++ l.drop 1)

/-- NEGOTIATE_ALGORITHMS: the DMTF measurement format, RSASSA-PSS with a 3,072-bit key, SHA-256, where the requester offers
them. -/
def Mod.negotiate (m : Mod) (ch : Chan) (spec asym hash : Nat) : Mod :=
  m.spdmAt ch (·.caps) fun m =>
    let ok := spec.testBit 0 && asym.testBit 3 && hash.testBit 0
    if !ok then m.spdmError ch 1 0
    else
      (m.setSpdm ch { m.spdmOf ch with algs := true }).reply ch 0x63 0 0
        (leBytes 2 36 ++ leBytes 1 1 ++ leBytes 1 0 ++ leBytes 4 2 ++ leBytes 4 8 ++ leBytes 4 1 ++ List.replicate 16 0)

/-- The certificate chain of a slot: 0 the module's, 1 the owner's, empty until one is written. -/
def Mod.chain (m : Mod) (slot : Nat) : List Byte :=
  if slot = 0 then Config.chain0
  else if slot = 1 then
    let x := m.flashImage 0x2910000 (2 ^ 16)
    if x.1 = ST_OK then slice x.2 0x400 (Ih.length x.2) else []
  else []

/-- Slots that hold a chain. -/
def Mod.slotMask (m : Mod) : Nat := 1 + 2 * b2n (!(m.chain 1).isEmpty)

/-- GET_DIGESTS. -/
def Mod.getDigests (m : Mod) (ch : Chan) : Mod :=
  m.spdmAt ch (·.algs) fun m =>
    m.reply ch 0x01 0 m.slotMask (((List.range 2).filter m.slotMask.testBit).flatMap fun k => sha256 (m.chain k))

/-- GET_CERTIFICATE: a portion of a chain. -/
def Mod.getCertificate (m : Mod) (ch : Chan) (slot off len : Nat) : Mod :=
  m.spdmAt ch (·.algs) fun m =>
    if !m.slotMask.testBit slot || (m.chain slot).length ≤ off then m.spdmError ch 1 0
    else
      let l := slice (m.chain slot) off (min len ((m.chain slot).length - off))
      m.reply ch 0x02 slot 0 (leBytes 2 l.length ++ leBytes 2 ((m.chain slot).length - off - l.length) ++ l)

/-- CHALLENGE: answered with the chain's digest, a nonce, a summary of the measurements asked for, and the device key's
signature. -/
def Mod.challenge (m : Mod) (ch : Chan) (slot what : Nat) (nonce : List Byte) : Mod :=
  m.spdmAt ch (·.algs) fun m =>
    if !m.slotMask.testBit slot then m.spdmError ch 1 0
    else
      let (n, m) := m.drawBytes 32
      let summary := if what = 0 then [] else
        sha256 ((if what = 1 then [1] else (List.range 23).map (· + 1)).flatMap m.measureBlock)
      let body := sha256 (m.chain slot) ++ n ++ summary ++ leBytes 2 0
      m.reply ch 0x03 slot m.slotMask (body ++ Config.sign (nonce ++ body))

/-- GET_MEASUREMENTS: operation 0 asks for the number of blocks, 0xFF for all, another for one; bit 0 of `attr` for a
signature. -/
def Mod.getMeasurements (m : Mod) (ch : Chan) (attr op : Nat) (nonce : List Byte) (slot : Nat) : Mod :=
  m.spdmAt ch (·.algs) fun m =>
    if op ≠ 0 && op ≠ 0xFF && 23 < op then m.spdmError ch 1 0
    else
      let ks := if op = 0 then [] else if op = 0xFF then (List.range 23).map (· + 1) else [op]
      let rcd := ks.flatMap m.measureBlock
      let (n, m) := m.drawBytes 32
      let body := leBytes 1 ks.length ++ leBytes 3 rcd.length ++ rcd ++ n ++ leBytes 2 0
      m.reply ch 0x60 (if op = 0 then 23 else 0) slot (body ++ if attr % 2 = 1 then Config.sign (nonce ++ body) else [])

/-- SPDM_UNSUPPORTED_REQUEST. -/
def Mod.spdmUnsupported (m : Mod) (ch : Chan) (code : Nat) : Mod :=
  if m.hears ch then m.spdmError ch 7 code else m

/-- DOE_DISCOVERY: the data object types of the PCI-SIG, discovery (0) and SPDM (1). -/
def Mod.doeDiscovery (m : Mod) (index : Nat) : Mod :=
  if !m.hears .doe then m
  else m.emit (.doe (if 1 < index then leBytes 4 0xFFFF else leBytes 2 1 ++ leBytes 1 index ++ leBytes 1 (if index = 0 then 1 else 0)))

/-! ### Sideband (R435, R436) -/

/-- An answer over MCTP. -/
def Mod.sideband (m : Mod) (type : Nat) (data : List Byte) : Mod := if m.serves then m.emit (.mctp type data) else m

/-- PLDM_SENSOR_READ: the sensors in the order of R435, four bytes each. -/
def Mod.pldmSensors (m : Mod) : Mod :=
  let vals := (List.range 6).map (fun d => m.get (F.PWR_TEMP_die_c d)) ++ (List.range 16).map (fun p => m.get F.MEM_STACK_STAT_temp_c p)
    ++ [m.get F.PWR_COOL_inlet_c, m.get F.PWR_COOL_outlet_c, m.get F.PWR_COOL_flow_ml, m.get F.PWR_IN_volts_10mv,
        m.get F.PWR_IN_amps_10ma, m.get F.PWR_IN_watts, m.get F.PWR_LIMIT_watts]
  m.sideband 1 (vals.flatMap (leBytes 4))

/-- VENDOR_READ_FAULT_LOG: records from an index to `head`. -/
def Mod.vendorFaultLog (m : Mod) (i : Nat) : Mod :=
  let h := m.get F.FLT_LOG_PTR_head
  let n := if i < 1024 then (h + 1024 - i) % 1024 else 0
  m.sideband 0x7E ((List.range n).flatMap fun k => leBytes 32 (Tab.get 0 m.flog ((i + k) % 1024)).toNat)

/-- VENDOR_READ_EVENT_LOG: whole sectors. -/
def Mod.vendorEventLog (m : Mod) (sector count : Nat) : Mod :=
  m.sideband 0x7E (flashRead m.flash (evSector sector) (0x10000 * min count (256 - sector)))

/-- VENDOR_READ_DUMP: a page of 32 KiB. -/
def Mod.vendorDump (m : Mod) (page : Nat) : Mod :=
  m.sideband 0x7E ((List.range 0x8000).map fun j => Tab.get 0 m.dump (0x8000 * page + j))

/-- VENDOR_READ_STATUS: `BOOT_STAT`, `SEC_STAT` and `GEO_AVAIL`. -/
def Mod.vendorStatus (m : Mod) : Mod :=
  m.sideband 0x7E (leBytes 8 (m.regAt R.BOOT_STAT.base 0) ++ leBytes 8 ((m.set F.SEC_STAT_window_s 0 m.windowLeft).regAt R.SEC_STAT.base 0)
    ++ leBytes 4 (m.regAt R.GEO_AVAIL.base 0))

/-- MCTP_ENDPOINT_ID_ASSIGN. -/
def Mod.assignEid (m : Mod) (e : Byte) : Mod := if m.serves then { m with boot := { m.boot with eid := e } } else m

end Sys2Proof.Machine
end

