-- ==== Sys2Proof/Machine/Deliver.lean ====
section
/-! DEFINITION. What follows a command at once (R255, R275, R296, R311, R328): packets of the module to itself are delivered, and
contexts, interludes and queues go on as far as they can; and the conditions under which a command reaches its block (R12, R371,
R414, R418, R427). -/

namespace Sys2Proof.Machine

/-- A packet of the module to itself. -/
def Mod.loopTake (m : Mod) (p : Packet) : Mod := if p.hdr.ptype = 0x02 then m.noticeAct p.payload else m.deliver 8 p

/-- One round: own packets, packets that came early, contexts, interludes, blocked queues, ports being fenced. -/
def Mod.round (m : Mod) : Mod :=
  let l := m.fab.loop
  let m := l.foldl Mod.loopTake { m with fab := { m.fab with loop := [] } }
  let m := m.replayColl m.early.length
  let m := m.each (m.ctxs.map (·.1)) Mod.ctxSettle
  let m := m.each (m.ctxs.map (·.1)) Mod.ilSettle
  let m := m.each m.liveQueues Mod.unblock
  m.each (List.range 8) Mod.fenceCheck

/-- Rounds until the module sends nothing more to itself; `k` bounds their number. -/
def Mod.rounds (m : Mod) : Nat → Mod
  | 0 => m
  | k + 1 => let m := m.round; if m.fab.loop.isEmpty then m else m.rounds k

/-- Whether the engines run: rails up, no global stop (R413). -/
def Mod.works (m : Mod) : Bool := m.powered && !m.stopped

/-- What follows a command. -/
def Mod.settle (m : Mod) : Mod := if m.works then m.rounds 64 else m

/-- An event of the engines: it happens only while they run. -/
def Mod.engine (m : Mod) (f : Mod → Mod) : Mod := if m.works then (f m).settle else m

/-- An event of what runs through a global stop: links, memory controllers, PCIe, the Armature (R414). -/
def Mod.always (m : Mod) (f : Mod → Mod) : Mod := if m.powered then (f m).settle else m

/-- Blocks that recovery mode implements (R427). -/
def recoveryBlocks : List Nat := [Blk.GEO, Blk.BOOT, Blk.SEC, Blk.FLT, Blk.TIME, Blk.PCI]

/-- Blocks whose registers take writes during a global stop: those of the domains that run, and those that R415 excepts. -/
def stopBlocks : List Nat := [Blk.GEO, Blk.PWR, Blk.CLK, Blk.BOOT, Blk.SEC, Blk.FLT, Blk.DUMP, Blk.TIME, Blk.PCI]

/-- A write of host software to a register of block `blk`. -/
def Mod.host (m : Mod) (blk : Nat) (f : Mod → Mod) : Mod :=
  if !m.powered || !m.pcie.link then m
  else if m.inRecovery then (if recoveryBlocks.contains blk then f m else m)
  else if m.get F.BOOT_STAT_step < 5 then m.log { st := ST_NO_RESPONSE, cls := .event, block := blk }
  else if m.stopped && !stopBlocks.contains blk then m.refuse ST_BAD_ACCESS blk
  else (f m).settle

/-- A write of host software to a doorbell page (R418, R414). -/
def Mod.doorbell (m : Mod) (d : Door) (f : Mod → Nat → Mod) : Mod :=
  if !m.powered || !m.pcie.link || !m.on F.BOOT_STAT_ready then m
  else if m.stopped then m.refuse ST_BAD_ACCESS Blk.Q
  else (m.atDoor d f).settle

/-- The outcome of a command that changes the module by `f`; the output pins follow. -/
def State.onMod (s : State) (f : Mod → Mod) : Host.Outcome State Fault Refusal :=
  .next { s with mod := f s.mod, pins := (f s.mod).pins }

end Sys2Proof.Machine
end

