-- ==== Sys2Proof/Machine/Access.lean ====
section
/-! DEFINITION. A write to a register by its address (R8, R11, R12): its access codes, the reserved values of its fields, and for a
register with an effect of its own that effect. -/

namespace Sys2Proof.Machine

/-- Blocks with a register group per context. -/
def perCtx (base : Nat) : Bool :=
  ctxFixed.contains base || stepFixed.contains base || castFixed.contains base
  || [R.MQ_CTL.base, R.MQ_FLAGS.base, R.MQ_LOG_CFG.base, R.MQ_LOG_PTR.base, R.CAL_STAT_CFG.base, R.HANG_CTX_CFG.base].contains base

/-- Records that a write was ignored. -/
def Mod.refuseWrite (m : Mod) (st : Status) (off base i : Nat) : Mod :=
  m.log { st := st, cls := .refused, block := blockOf off, d0 := off,
          ctx := if perCtx base then i else if base = R.Q_BASE.base then i / 16 else 0xFF,
          queue := if base = R.Q_BASE.base then i else 0xFFFF }

/-- A write to a register without an effect of its own. -/
def Mod.plainWrite (m : Mod) (r : Reg) (off i mask v : Nat) : Mod :=
  let old := m.regAt off r.reset
  let new := r.next 0 mask old v
  let st := m.writeRefusal r i mask old new
  if st ≠ ST_OK then m.refuseWrite st off r.base i else m.setRegAt off r.reset new

/-- `CTX_CFG[c]`: `slice_us` may change at any time, and a written 0 leaves it (R132). -/
def Mod.ctxCfgWrite (m : Mod) (off c mask v : Nat) : Mod :=
  let r := R.CTX_CFG
  let old := m.regAt off r.reset
  let new := r.next 0 mask old v
  let sl := if bits new 26 16 = 0 then bits old 26 16 else bits new 26 16
  let new := setBits new 26 16 sl
  if m.ctxState c = 0 then m.setRegAt off r.reset new
  else
    let m := m.setRegAt off r.reset (setBits old 26 16 sl)
    if setBits new 26 16 0 = setBits old 26 16 0 then m else m.refuseWrite ST_CTX_STATE off r.base c

/-- `CTX_CTL[c]` (R131, R382). -/
def Mod.ctxCtlWrite (m : Mod) (c v : Nat) : Mod :=
  if v.testBit 0 && v.testBit 1 then m.refuseCtx ST_CTX_STATE Blk.CTX c
  else if v.testBit 0 then m.ctxEnable c
  else if v.testBit 1 then m.ctxTeardown c else m

/-- `Q_CFG[i]` (R146). -/
def Mod.qCfgWrite (m : Mod) (off i mask v : Nat) : Mod :=
  let new := R.Q_CFG.next 0 mask (m.regAt off 0) v
  if m.qOn i then (if new % 2 = 0 then m.queueDisable i else m.refuseQueue ST_CTX_STATE Blk.Q i)
  else if mask % 2 = 1 && v % 2 = 1 then m.queueEnable i new
  else (if mask % 2 = 1 then m.queueDisable i else m).setRegAt off 0 new

/-- `LNK_CFG[port]`: what changes of `fence`, and a written `enable`, act (R238, R265, R384). -/
def Mod.lnkCfgWrite (m : Mod) (off n mask v : Nat) : Mod :=
  let old := m.regAt off R.LNK_CFG.reset
  let new := R.LNK_CFG.next 0 mask old v
  let st := m.writeRefusal R.LNK_CFG n mask old new
  if st ≠ ST_OK then m.refuseWrite st off R.LNK_CFG.base n
  else
    let m := m.setRegAt off R.LNK_CFG.reset (setBits (setBits new 0 1 (old % 2)) 5 1 (bits old 5 1))
    let m := if bits new 5 1 = bits old 5 1 then m else if new.testBit 5 then m.portFence n else m.portUnfence n
    if new % 2 = 1 then (if touched mask 0 1 then m.portEnable n else m) else if old % 2 = 1 then m.portDisable n else m

/-- `PART_CTL[p]` (R364, R384, R463). -/
def Mod.partCtlWrite (m : Mod) (p v : Nat) : Mod :=
  let on := m.on F.PART_CTL_enable p || (m.get F.FLT_PEND_BLK_part).testBit p
  let m := if v.testBit 0 then m.partEnable p else if on then m.partDisable p else m
  if v.testBit 1 then m.partReset p else m

/-- `STEP_CTL[c]`: the actions of the bits set, in bit order. -/
def Mod.stepCtlWrite (m : Mod) (c v : Nat) : Mod :=
  let m := if v.testBit 0 then m.stepVeto c else m
  let m := if v.testBit 1 then m.stepAbandon c else m
  let m := if v.testBit 2 then m.stepClose c else m
  if v.testBit 3 then m.stepClearHalt c else m

/-- `CAST_CMD[c]`. -/
def Mod.castCmdWrite (m : Mod) (c v : Nat) : Mod :=
  if m.on F.CAST_CMD_busy c then m.refuseCtx ST_BUSY Blk.CAST c
  else match v % 4 with
    | 1 => m.castLoad c (v.testBit 4)
    | 2 => m.castUnload c
    | 3 => m.castRestore c (v.testBit 2)
    | _ => m

/-- `RTE_CMD`. -/
def Mod.rteCmdWrite (m : Mod) (v : Nat) : Mod :=
  match v % 4 with
  | 0 => m.routeLoad
  | 1 => m.routeCommit false
  | 2 => m.routeCommit true
  | _ => m.routeClear

/-- `BOOT_CMD`; `flash_off` holds what was last written to it. -/
def Mod.bootCmdWrite (m : Mod) (mask v : Nat) : Mod :=
  let m := if touched mask 32 27 then m.set F.BOOT_CMD_flash_off 0 (bits v 32 27) else m
  match v % 8 with
  | 1 => m.bootVolatile (v.testBit 4) (v.testBit 3)
  | 2 => m.bootFirmware
  | 3 => m.bootConfig
  | 4 => m.bootErase
  | 5 => m.bootRecover
  | 6 => m.bootRecoverCfg
  | 7 => m.bootCopy (m.get F.BOOT_CMD_flash_off)
  | _ => m

/-- `SEC_CMD`. -/
def Mod.secCmdWrite (m : Mod) (v : Nat) : Mod :=
  match v % 8 with
  | 1 => m.secProvision
  | 2 => m.secReplace
  | 3 => m.secChain
  | 4 => m.secUnlock
  | 5 => m.secRelock
  | 6 => m.secRaise
  | _ => m

/-- `TIME_STOP_CTL`: the actions of the bits set, in bit order. -/
def Mod.stopCtlWrite (m : Mod) (v : Nat) : Mod :=
  let m := if v.testBit 0 then m.stopArm else m
  let m := if v.testBit 1 then m.stopCancel else m
  if v.testBit 2 then m.stopRelease else m

/-- `DUMP_CTL`. -/
def Mod.dumpCtlWrite (m : Mod) (off mask v : Nat) : Mod :=
  let m := m.plainWrite R.DUMP_CTL off 0 mask v
  let m := if v.testBit 2 then m.dumpDiscard else m
  if v.testBit 0 then m.dumpTrigger else m

/-- A write to a trace register of buffer `b`: blocks that the host ring now takes are sent. -/
def Mod.trcWrite (m : Mod) (r : Reg) (off b mask v : Nat) : Mod := (m.plainWrite r off b mask v).traceStream b (2 ^ 20)

/-- Registers of the table of chapters 1 to 8 with an effect of their own. -/
def Mod.regActs0 (m : Mod) (r : Reg) (off i mask v : Nat) : Option Mod :=
  let b := r.base
  if b = R.CTX_CFG.base then some (m.ctxCfgWrite off i mask v)
  else if b = R.CTX_CTL.base then some (m.ctxCtlWrite i v)
  else if b = R.CTX_RGN_CMD.base then
    some (if !touched mask 0 17 then m else if v.testBit 16 then m.regionWrite (bits v 10 6) (bits v 0 10)
      else m.regionRead (bits v 10 6) (bits v 0 10))
  else if b = R.Q_CFG.base then some (m.qCfgWrite off i mask v)
  else if b = R.FLG_VAL.base then
    some (m.flagSet i (BitVec.ofNat 64 (R.FLG_VAL.next 0 mask (m.flag i).toNat v)))
  else if b = R.FLG_ADD.base then some (m.flagAdd i (BitVec.ofNat 64 v))
  else if b = R.TDT_CMD.base then some (if touched mask 0 17 then m.tdtCmd (bits v 0 17) else m)
  else if b = R.MEM_ZONE_CTL.base then some (if v.testBit 0 then m.zoneCommit else m)
  else if b = R.LNK_CFG.base then some (m.lnkCfgWrite off i mask v)
  else if b = R.LNK_CTL.base then some (if v.testBit 0 then m.portRetrain i else m)
  else if b = R.LNK_CTX_GEN.base then some (if touched mask 0 16 then m.genWr i (bits v 0 16) else m)
  else if b = R.RTE_CMD.base then some (if touched mask 0 2 then m.rteCmdWrite v else m)
  else if b = R.RTE_DETOUR.base && 224 ≤ i then some m
  else none

/-- Registers of the tables of chapters 9 to 15 with an effect of their own. -/
def Mod.regActs1 (m : Mod) (r : Reg) (off i mask v : Nat) : Option Mod :=
  let b := r.base
  if b = R.STEP_CTL.base then some (m.stepCtlWrite i v)
  else if b = R.STEP_SET.base then some (m.stepSet i (R.STEP_SET.next mask mask (m.get F.STEP_COMMITTED_step i) v))
  else if b = R.CAST_CMD.base then some (m.castCmdWrite i v)
  else if b = R.FLT_SUMMARY.base || b = R.FLT_IRQ_EN.base then some (m.withAlert fun m => m.plainWrite r off i mask v)
  else if b = R.FLT_RESET.base then some (m.moduleReset v)
  else if b = R.DUMP_CTL.base then some (m.dumpCtlWrite off mask v)
  else if b = R.PART_CTL.base then some (m.partCtlWrite i v)
  else if b = R.PART_UCODE_CMD.base then some (if v.testBit 4 then m.ucodeLoad (v % 16) else m)
  else if b = R.TRC_MARK.base then some (m.trcMark v)
  else if b = R.TRC_FLUSH.base then some (m.trcFlush (bits v 0 17))
  else if b = R.TRC_PTR.base then some ((m.plainWrite r off i mask v).traceSpace i)
  else if b = R.TRC_BUF.base || b = R.TRC_HOST_PTR.base then some (m.trcWrite r off i mask v)
  else if b = R.TIME_STOP_CTL.base then some (m.stopCtlWrite v)
  else if b = R.BOOT_CMD.base then some (m.bootCmdWrite mask v)
  else if b = R.SEC_CMD.base then some (m.secCmdWrite v)
  else if b = R.PWR_MS_CTL.base then some (if touched mask 0 2 then m.msTarget (v % 4) else m)
  else none

/-- A write of the bits of `mask` of the register at offset `off`: dropped where the register does not answer (R371). -/
def Mod.regPut (m : Mod) (r : Reg) (off i mask v : Nat) : Mod :=
  if m.mute r i then m.noResponse off
  else match m.regActs0 r off i mask v with
  | some m => m
  | none => match m.regActs1 r off i mask v with
    | some m => m
    | none => m.plainWrite r off i mask v

/-- A 32-bit access: a 32-bit register, half of a 64-bit register, or nothing (R11, R12). -/
def Mod.write32 (m : Mod) (off v : Nat) : Mod :=
  match regFind off with
  | some (r, i, _) => m.regPut r off i (2 ^ 32 - 1) v
  | none => if off % 8 ≠ 4 then m else
    match regFind (off - 4) with
    | some (r, i, _) => if r.bytes = 8 then m.regPut r (off - 4) i ((2 ^ 32 - 1) * 2 ^ 32) (v * 2 ^ 32) else m
    | none => m

/-- An access of 4 or 8 bytes, aligned. -/
def Mod.writeBar0 (m : Mod) (off size v : Nat) : Mod :=
  if size = 4 then m.write32 off (v % 2 ^ 32)
  else match regFind off with
    | some (r, i, _) =>
      if r.bytes = 8 then m.regPut r off i (2 ^ 64 - 1) v else (m.write32 off (v % 2 ^ 32)).write32 (off + 4) (v / 2 ^ 32)
    | none => (m.write32 off (v % 2 ^ 32)).write32 (off + 4) (v / 2 ^ 32)

/-- A 32-bit write in a doorbell page (R146). -/
def Mod.door32 (i : Nat) (m : Mod) (off v : Nat) : Mod :=
  let w := BitVec.ofNat 64 v
  match off with
  | 0x00 => m.dbTail i (BitVec.ofNat 32 v)
  | 0x18 => if v = 1 || v = 2 then m.dbResume i (v == 2) else m
  | 0x20 => m.setQueue i { m.queue i with flagSel := BitVec.ofNat 16 v }
  | 0x28 | 0x2C =>
    let old := (m.flag (m.ctxFlag (qCtx i) (m.queue i).flagSel.toNat)).toNat
    m.dbFlag i false (BitVec.ofNat 64 (setBits old (8 * (off - 0x28)) 32 v))
  | 0x30 => m.dbFlag i true w
  | 0x34 => m.dbFlag i true (BitVec.ofNat 64 (v * 2 ^ 32))
  | _ => m

/-- A write in a doorbell page: `DB_FLAG_VAL` and `DB_FLAG_ADD` are 64 bits wide. -/
def Mod.writeDoor (m : Mod) (i off size v : Nat) : Mod :=
  if size = 8 && off = 0x28 then m.dbFlag i false (BitVec.ofNat 64 v)
  else if size = 8 && off = 0x30 then m.dbFlag i true (BitVec.ofNat 64 v)
  else if size = 8 then Mod.door32 i (Mod.door32 i m off (v % 2 ^ 32)) (off + 4) (v / 2 ^ 32)
  else Mod.door32 i m off (v % 2 ^ 32)

/-- Whether an access has a size and alignment that R11 accepts. -/
def accessOk (off size : Nat) : Bool := (size == 4 || size == 8) && off % size == 0

/-- An access to BAR0 of a size or alignment that R11 does not accept, whatever block it names. -/
def Mod.badAccess (m : Mod) (off : Nat) : Mod :=
  if !m.powered || !m.pcie.link then m
  else if !m.inRecovery && decide (m.get F.BOOT_STAT_step < 5) then m.noResponse off
  else m.refuse ST_BAD_ACCESS (blockOf off) off

/-- REGISTER_WRITE. -/
def Mod.registerWrite (m : Mod) (a : RegAddr) (size v : Nat) : Mod :=
  match a with
  | .bar0 off =>
    if 2 ^ 26 ≤ off then m
    else if !accessOk off size then m.badAccess off
    else m.host (blockOf off) fun m => m.writeBar0 off size v
  | .door d off =>
    if 4096 ≤ off then m
    else if !accessOk off size then m.doorbell d fun m _ => m.refuse ST_BAD_ACCESS Blk.Q off
    else m.doorbell d fun m i => m.writeDoor i off size v

end Sys2Proof.Machine
end

