-- ==== Sys2Proof/Machine/Cast.lean ====
section
/-! DEFINITION. Commands: Casts and restore (chapter 11).
Each is its own definition over the shared operations. -/

namespace Sys2Proof.Machine

/-- CAST_LOAD (R334). -/
def execCastLoad (c : Fin 64) (blank : Bool) (s : State) : Host.Outcome State Fault Refusal :=
  s.onMod fun m => m.host Blk.CAST fun m => m.castLoad c.val blank

/-- CAST_UNLOAD (R331). -/
def execCastUnload (c : Fin 64) (s : State) : Host.Outcome State Fault Refusal :=
  s.onMod fun m => m.host Blk.CAST fun m => m.castUnload c.val

/-- CAST_RESTORE (R350). -/
def execCastRestore (c : Fin 64) (checkToken : Bool) (s : State) : Host.Outcome State Fault Refusal :=
  s.onMod fun m => m.host Blk.CAST fun m => m.castRestore c.val checkToken

/-- RESTORE_COMPLETE (R353). -/
def execRestoreComplete (c : Fin 64) (s : State) : Host.Outcome State Fault Refusal :=
  s.onMod fun m => m.engine fun m => m.restoreDone c.val

/-- CAST_DATA_RECEIVE (R329). -/
def execCastDataReceive (n : Fin 8) (pkt : Packet) (s : State) : Host.Outcome State Fault Refusal :=
  s.onMod fun m => m.engine fun m => m.arriveKind n.val pkt [0x20]

/-- CAST_DELTA_RECEIVE (R341). -/
def execCastDeltaReceive (n : Fin 8) (pkt : Packet) (s : State) : Host.Outcome State Fault Refusal :=
  s.onMod fun m => m.engine fun m => m.arriveKind n.val pkt [0x21]

/-- CAST_REC_RECEIVE (R347). -/
def execCastRecReceive (n : Fin 8) (pkt : Packet) (s : State) : Host.Outcome State Fault Refusal :=
  s.onMod fun m => m.engine fun m => m.arriveKind n.val pkt [0x22]

/-- CAST_DONE_RECEIVE (R328). -/
def execCastDoneReceive (n : Fin 8) (pkt : Packet) (s : State) : Host.Outcome State Fault Refusal :=
  s.onMod fun m => m.engine fun m => m.arriveKind n.val pkt [0x23]

/-- CAST_ACK_RECEIVE (R328). -/
def execCastAckReceive (n : Fin 8) (pkt : Packet) (s : State) : Host.Outcome State Fault Refusal :=
  s.onMod fun m => m.engine fun m => m.arriveKind n.val pkt [0x24]

/-- CAST_FETCH_RECEIVE (R351). -/
def execCastFetchReceive (n : Fin 8) (pkt : Packet) (s : State) : Host.Outcome State Fault Refusal :=
  s.onMod fun m => m.engine fun m => m.arriveKind n.val pkt [0x25]

/-- CAST_ABANDON_TIMEOUT (R331). -/
def execCastAbandonTimeout (c : Fin 64) (s : State) : Host.Outcome State Fault Refusal :=
  s.onMod fun m => m.engine fun m => m.castTimeout c.val

end Sys2Proof.Machine
end

