-- ==== Sys2Proof/Machine/Control.lean ====
section
/-! DEFINITION. Commands: Doorbells, flags, contexts, regions, queues, descriptors and time slices (chapter 5).
Each is its own definition over the shared operations. -/

namespace Sys2Proof.Machine

/-- DB_TAIL_WRITE (R140). -/
def execDbTailWrite (d : Door) (value : W32) (s : State) : Host.Outcome State Fault Refusal :=
  s.onMod fun m => m.doorbell d fun m i => m.dbTail i (BitVec.ofNat 32 value.toNat)

/-- DB_RESUME_SKIP (R145). -/
def execDbResumeSkip (d : Door) (s : State) : Host.Outcome State Fault Refusal :=
  s.onMod fun m => m.doorbell d fun m i => m.dbResume i false

/-- DB_RESUME_RETRY (R145). -/
def execDbResumeRetry (d : Door) (s : State) : Host.Outcome State Fault Refusal :=
  s.onMod fun m => m.doorbell d fun m i => m.dbResume i true

/-- DB_FLAG_VAL_WRITE (R148). -/
def execDbFlagValWrite (d : Door) (value : W64) (s : State) : Host.Outcome State Fault Refusal :=
  s.onMod fun m => m.doorbell d fun m i => m.dbFlag i false value

/-- DB_FLAG_ADD_WRITE (R148). -/
def execDbFlagAddWrite (d : Door) (value : W64) (s : State) : Host.Outcome State Fault Refusal :=
  s.onMod fun m => m.doorbell d fun m i => m.dbFlag i true value

/-- FLG_VAL_WRITE (R148). -/
def execFlgValWrite (f : Fin 65536) (value : W64) (s : State) : Host.Outcome State Fault Refusal :=
  s.onMod fun m => m.host Blk.FLG fun m => m.flagSet f.val value

/-- FLG_ADD_WRITE (R148). -/
def execFlgAddWrite (f : Fin 65536) (value : W64) (s : State) : Host.Outcome State Fault Refusal :=
  s.onMod fun m => m.host Blk.FLG fun m => m.flagAdd f.val value

/-- CTX_ENABLE (R131). -/
def execCtxEnable (c : Fin 64) (s : State) : Host.Outcome State Fault Refusal :=
  s.onMod fun m => m.host Blk.CTX fun m => m.ctxEnable c.val

/-- CTX_TEARDOWN (R382). -/
def execCtxTeardown (c : Fin 64) (s : State) : Host.Outcome State Fault Refusal :=
  s.onMod fun m => m.host Blk.CTX fun m => m.ctxTeardown c.val

/-- TEARDOWN_QUIESCED (R382). -/
def execTeardownQuiesced (c : Fin 64) (s : State) : Host.Outcome State Fault Refusal :=
  s.onMod fun m => m.engine fun m => m.teardownQuiesced c.val

/-- TEARDOWN_TIMEOUT (R382). -/
def execTeardownTimeout (c : Fin 64) (silent : BitVec 16) (s : State) : Host.Outcome State Fault Refusal :=
  s.onMod fun m => m.engine fun m => m.teardownTimeout c.val silent.toNat

/-- REGION_WRITE (R135). -/
def execRegionWrite (c : Fin 64) (n : Fin 1024) (s : State) : Host.Outcome State Fault Refusal :=
  s.onMod fun m => m.host Blk.CTX fun m => m.regionWrite c.val n.val

/-- REGION_READ (R135). -/
def execRegionRead (c : Fin 64) (n : Fin 1024) (s : State) : Host.Outcome State Fault Refusal :=
  s.onMod fun m => m.host Blk.CTX fun m => m.regionRead c.val n.val

/-- QUEUE_ENABLE (R146). -/
def execQueueEnable (q : Fin 1024) (cfg : W64) (s : State) : Host.Outcome State Fault Refusal :=
  s.onMod fun m => m.host Blk.Q fun m => m.queueEnable q.val (setBits cfg.toNat 0 1 1)

/-- QUEUE_DISABLE (R146). -/
def execQueueDisable (q : Fin 1024) (s : State) : Host.Outcome State Fault Refusal :=
  s.onMod fun m => m.host Blk.Q fun m => m.queueDisable q.val

/-- TDT_CMD (R157). -/
def execTdtCmd (entry : Fin 131072) (s : State) : Host.Outcome State Fault Refusal :=
  s.onMod fun m => m.host Blk.TDT fun m => m.tdtCmd entry.val

/-- CONTEXT_SWITCH (R159). -/
def execContextSwitch (p : Fin 16) (s : State) : Host.Outcome State Fault Refusal :=
  s.onMod fun m => m.engine fun m => m.contextSwitch p.val

/-- INTERLUDE_BUDGET_EXPIRY (R162). -/
def execInterludeBudgetExpiry (e : Fin 64) (s : State) : Host.Outcome State Fault Refusal :=
  s.onMod fun m => m.engine fun m => m.ilExpire e.val

end Sys2Proof.Machine
end

