-- ==== Sys2Proof/Machine/Fabric.lean ====
section
/-! DEFINITION. Commands: The Vufen fabric: ports, flits, packets, discovery and routes (chapter 8).
Each is its own definition over the shared operations. -/

namespace Sys2Proof.Machine

/-- An event of a link: the PCS runs through a global stop (R414), and not while the boundary cells hold the signal balls
(R446). -/
def Mod.link (m : Mod) (f : Mod → Mod) : Mod := if m.boot.jtag then m else m.always f

/-- PORT_ENABLE (R238). -/
def execPortEnable (n : Fin 8) (s : State) : Host.Outcome State Fault Refusal :=
  s.onMod fun m => m.host Blk.LNK fun m => m.portEnable n.val

/-- PORT_DISABLE (R238). -/
def execPortDisable (n : Fin 8) (s : State) : Host.Outcome State Fault Refusal :=
  s.onMod fun m => m.host Blk.LNK fun m => m.portDisable n.val

/-- PORT_RETRAIN (R241). -/
def execPortRetrain (n : Fin 8) (s : State) : Host.Outcome State Fault Refusal :=
  s.onMod fun m => m.host Blk.LNK fun m => m.portRetrain n.val

/-- PORT_FENCE (R265). -/
def execPortFence (n : Fin 8) (s : State) : Host.Outcome State Fault Refusal :=
  s.onMod fun m => m.host Blk.LNK fun m => m.portFence n.val

/-- PORT_UNFENCE (R265). -/
def execPortUnfence (n : Fin 8) (s : State) : Host.Outcome State Fault Refusal :=
  s.onMod fun m => m.host Blk.LNK fun m => m.portUnfence n.val

/-- PEER_DETECTED (R239). -/
def execPeerDetected (n : Fin 8) (maxMode : Fin 3) (s : State) : Host.Outcome State Fault Refusal :=
  s.onMod fun m => m.link fun m => m.peerDetected n.val maxMode.val

/-- TRAINING_COMPLETE (R239). -/
def execTrainingComplete (n : Fin 8) (failed : BitVec 8) (ident : Option Identity) (s : State)
    : Host.Outcome State Fault Refusal :=
  s.onMod fun m => m.link fun m => m.trainingDone n.val failed.toNat ident

/-- LANE_FAIL (R240, R241). -/
def execLaneFail (n : Fin 8) (lanes : BitVec 8) (s : State) : Host.Outcome State Fault Refusal :=
  s.onMod fun m => m.link fun m => m.laneFail n.val lanes.toNat

/-- DATA_FLIT_RECEIVE (R244). -/
def execDataFlitReceive (n : Fin 8) (flit : List Byte) (s : State) : Host.Outcome State Fault Refusal :=
  s.onMod fun m => m.link fun m => m.dataFlit n.val flit

/-- NAK_RECEIVE (R244). -/
def execNakReceive (n : Fin 8) (flit : List Byte) (lanes : BitVec 8) (s : State) : Host.Outcome State Fault Refusal :=
  s.onMod fun m => m.engine fun m => m.nakFlit n.val flit lanes.toNat

/-- KEEPALIVE_SEND (R263). -/
def execKeepaliveSend (n : Fin 8) (s : State) : Host.Outcome State Fault Refusal :=
  s.onMod fun m => m.link fun m => m.keepaliveSend n.val

/-- KEEPALIVE_RECEIVE (R263). -/
def execKeepaliveReceive (n : Fin 8) (flit : List Byte) (s : State) : Host.Outcome State Fault Refusal :=
  s.onMod fun m => m.link fun m => m.keepaliveFlit n.val flit

/-- KEEPALIVE_TIMEOUT (R263). -/
def execKeepaliveTimeout (n : Fin 8) (s : State) : Host.Outcome State Fault Refusal :=
  s.onMod fun m => m.link fun m => m.keepaliveTimeout n.val

/-- AUTO_RETRAIN (R264). -/
def execAutoRetrain (n : Fin 8) (s : State) : Host.Outcome State Fault Refusal :=
  s.onMod fun m => m.link fun m => m.autoRetrain n.val

/-- IDLE_FLIT_RECEIVE (R247). -/
def execIdleFlitReceive (n : Fin 8) (flit : List Byte) (s : State) : Host.Outcome State Fault Refusal :=
  s.onMod fun m => m.engine fun m => m.idleFlit n.val flit

/-- PACKET_RECEIVE (R256). -/
def execPacketReceive (n : Fin 8) (vc : Fin 8) (cls : Bool) (pkt : Packet) (s : State) : Host.Outcome State Fault Refusal :=
  s.onMod fun m => m.engine fun m => m.arrive n.val vc.val cls pkt

/-- LINK_NOTICE_RECEIVE (R264). -/
def execLinkNoticeReceive (n : Fin 8) (pkt : Packet) (s : State) : Host.Outcome State Fault Refusal :=
  s.onMod fun m => m.engine fun m => m.arriveKind n.val pkt [0x02]

/-- DISCOVERY_RECEIVE (R254). -/
def execDiscoveryReceive (n : Fin 8) (pkt : Packet) (s : State) : Host.Outcome State Fault Refusal :=
  s.onMod fun m => m.engine fun m => m.arriveKind n.val pkt [0x01]

/-- JOIN_WINDOW_EXPIRY (R254). -/
def execJoinWindowExpiry (s : State) : Host.Outcome State Fault Refusal :=
  s.onMod fun m => m.engine fun m => m.joinExpiry

/-- ELECTION_TIMEOUT (R254). -/
def execElectionTimeout (s : State) : Host.Outcome State Fault Refusal :=
  s.onMod fun m => m.engine fun m => m.electionEnd

/-- ROUTE_LOAD_STAGING (R272). -/
def execRouteLoadStaging (s : State) : Host.Outcome State Fault Refusal :=
  s.onMod fun m => m.host Blk.RTE fun m => m.routeLoad

/-- ROUTE_COMMIT_LOCAL (R260). -/
def execRouteCommitLocal (s : State) : Host.Outcome State Fault Refusal :=
  s.onMod fun m => m.host Blk.RTE fun m => m.routeCommit false

/-- ROUTE_COMMIT_BROADCAST (R260). -/
def execRouteCommitBroadcast (s : State) : Host.Outcome State Fault Refusal :=
  s.onMod fun m => m.host Blk.RTE fun m => m.routeCommit true

/-- ROUTE_CLEAR_AUTO (R272). -/
def execRouteClearAuto (s : State) : Host.Outcome State Fault Refusal :=
  s.onMod fun m => m.host Blk.RTE fun m => m.routeClear

/-- ROUTE_BROADCAST_RECEIVE (R260). -/
def execRouteBroadcastReceive (n : Fin 8) (pkt : Packet) (s : State) : Host.Outcome State Fault Refusal :=
  s.onMod fun m => m.engine fun m => m.arriveKind n.val pkt [0x03]

/-- GEN_WR (R267). -/
def execGenWr (c : Fin 64) (value : BitVec 16) (s : State) : Host.Outcome State Fault Refusal :=
  s.onMod fun m => m.host Blk.LNK fun m => m.genWr c.val value.toNat

/-- LINK_WATCHDOG_EXPIRY (R372). -/
def execLinkWatchdogExpiry (d : Fin 2) (s : State) : Host.Outcome State Fault Refusal :=
  s.onMod fun m => m.engine fun m => m.linkWatchdog d.val

end Sys2Proof.Machine
end

