-- ==== Sys2Proof/Machine/Issue.lean ====
section
/-! DEFINITION. Commands: The records of a queue that the arrays, vector units, data movers and control sequencer run, and the life of an operation (chapters 5, 6).
Each is its own definition over the shared operations. -/

namespace Sys2Proof.Machine

/-- PREFETCH_LIST_DONE: the items of a running list that wait for nothing more are copied, and the list ends with its last
(R166). -/
def Mod.listDone (m : Mod) (c l : Nat) : Mod :=
  if m.pcie.reqs.any fun x => x.list == some (c, l) then m else m.pfAdvance c l

/-- NOP (R171). -/
def execNop (q : Fin 1024) (s : State) : Host.Outcome State Fault Refusal :=
  s.onMod fun m => m.engine fun m => m.issueNop q.val

/-- MATMUL (R174). -/
def execMatmul (q : Fin 1024) (errs : List MemErr) (s : State) : Host.Outcome State Fault Refusal :=
  s.onMod fun m => m.engine fun m => (m.sramErrors errs).issueMatmul q.val errs

/-- BMATMUL (R174). -/
def execBmatmul (q : Fin 1024) (errs : List MemErr) (s : State) : Host.Outcome State Fault Refusal :=
  s.onMod fun m => m.engine fun m => (m.sramErrors errs).issueBmatmul q.val errs

/-- CONV (R175). -/
def execConv (q : Fin 1024) (errs : List MemErr) (s : State) : Host.Outcome State Fault Refusal :=
  s.onMod fun m => m.engine fun m => (m.sramErrors errs).issueConv q.val errs

/-- ATTN (R176). -/
def execAttn (q : Fin 1024) (errs : List MemErr) (s : State) : Host.Outcome State Fault Refusal :=
  s.onMod fun m => m.engine fun m => (m.sramErrors errs).issueAttn q.val errs

/-- ELTWISE (R178). -/
def execEltwise (q : Fin 1024) (errs : List MemErr) (s : State) : Host.Outcome State Fault Refusal :=
  s.onMod fun m => m.engine fun m => (m.sramErrors errs).issueEltwise q.val errs

/-- REDUCE (R179). -/
def execReduce (q : Fin 1024) (errs : List MemErr) (s : State) : Host.Outcome State Fault Refusal :=
  s.onMod fun m => m.engine fun m => (m.sramErrors errs).issueReduce q.val errs

/-- NORM (R180). -/
def execNorm (q : Fin 1024) (errs : List MemErr) (s : State) : Host.Outcome State Fault Refusal :=
  s.onMod fun m => m.engine fun m => (m.sramErrors errs).issueNorm q.val errs

/-- SOFTMAX (R181). -/
def execSoftmax (q : Fin 1024) (errs : List MemErr) (s : State) : Host.Outcome State Fault Refusal :=
  s.onMod fun m => m.engine fun m => (m.sramErrors errs).issueSoftmax q.val errs

/-- COPY (R184). -/
def execCopy (q : Fin 1024) (errs : List MemErr) (s : State) : Host.Outcome State Fault Refusal :=
  s.onMod fun m => m.engine fun m => (m.sramErrors errs).issueCopy q.val errs

/-- GATHER (R185). -/
def execGather (q : Fin 1024) (errs : List MemErr) (s : State) : Host.Outcome State Fault Refusal :=
  s.onMod fun m => m.engine fun m => (m.sramErrors errs).issueGather q.val errs

/-- SCATTER (R185). -/
def execScatter (q : Fin 1024) (errs : List MemErr) (s : State) : Host.Outcome State Fault Refusal :=
  s.onMod fun m => m.engine fun m => (m.sramErrors errs).issueScatter q.val errs

/-- TRANSPOSE (R184). -/
def execTranspose (q : Fin 1024) (errs : List MemErr) (s : State) : Host.Outcome State Fault Refusal :=
  s.onMod fun m => m.engine fun m => (m.sramErrors errs).issueTranspose q.val errs

/-- HOST_XFER (R184). -/
def execHostXfer (q : Fin 1024) (errs : List MemErr) (s : State) : Host.Outcome State Fault Refusal :=
  s.onMod fun m => m.engine fun m => (m.sramErrors errs).issueHostXfer q.val errs

/-- PREFETCH_LIST (R165). -/
def execPrefetchList (q : Fin 1024) (s : State) : Host.Outcome State Fault Refusal :=
  s.onMod fun m => m.engine fun m => m.issuePrefetchList q.val

/-- SCATTER_REDUCE (R186). -/
def execScatterReduce (q : Fin 1024) (errs : List MemErr) (s : State) : Host.Outcome State Fault Refusal :=
  s.onMod fun m => m.engine fun m => (m.sramErrors errs).issueScatterReduce q.val errs

/-- ATOMIC_CAS (R187). -/
def execAtomicCas (q : Fin 1024) (errs : List MemErr) (s : State) : Host.Outcome State Fault Refusal :=
  s.onMod fun m => m.engine fun m => (m.sramErrors errs).issueAtomicCas q.val errs

/-- INTERLUDE (R162). -/
def execInterlude (q : Fin 1024) (s : State) : Host.Outcome State Fault Refusal :=
  s.onMod fun m => m.engine fun m => m.issueInterlude q.val

/-- DESC_WRITE (R193). -/
def execDescWrite (q : Fin 1024) (s : State) : Host.Outcome State Fault Refusal :=
  s.onMod fun m => m.engine fun m => m.issueDescWrite q.val

/-- STREAM_WRITE (R194). -/
def execStreamWrite (q : Fin 1024) (s : State) : Host.Outcome State Fault Refusal :=
  s.onMod fun m => m.engine fun m => m.issueStreamWrite q.val

/-- GROUP_WRITE (R194). -/
def execGroupWrite (q : Fin 1024) (s : State) : Host.Outcome State Fault Refusal :=
  s.onMod fun m => m.engine fun m => m.issueGroupWrite q.val

/-- WATCH_WRITE (R193). -/
def execWatchWrite (q : Fin 1024) (s : State) : Host.Outcome State Fault Refusal :=
  s.onMod fun m => m.engine fun m => m.issueWatchWrite q.val

/-- OP_COMPLETE (R142). -/
def execOpComplete (q : Fin 1024) (s : State) : Host.Outcome State Fault Refusal :=
  s.onMod fun m => m.engine fun m => m.opComplete q.val

/-- FALLBACK (R115). -/
def execFallback (q : Fin 1024) (errs : List MemErr) (s : State) : Host.Outcome State Fault Refusal :=
  s.onMod fun m => m.engine fun m => (m.sramErrors errs).fallbackRun q.val errs

/-- PREFETCH_LIST_DONE (R166). -/
def execPrefetchListDone (c : Fin 64) (layer : BitVec 16) (s : State) : Host.Outcome State Fault Refusal :=
  s.onMod fun m => m.engine fun m => m.listDone c.val layer.toNat

end Sys2Proof.Machine
end

