-- ==== Sys2Proof/Machine/Memory.lean ====
section
/-! DEFINITION. Commands: Module memory: zones, BAR4, host windows, memory sides, scrubbing, stack temperature and stack faults (chapter 7).
Each is its own definition over the shared operations. -/

namespace Sys2Proof.Machine

/-- ZONE_COMMIT (R201). -/
def execZoneCommit (s : State) : Host.Outcome State Fault Refusal :=
  s.onMod fun m => m.host Blk.MEM fun m => m.zoneCommit

/-- BAR4_READ (R230). -/
def execBar4Read (off len : Nat) (errs : List MemErr) (s : State) : Host.Outcome State Fault Refusal :=
  s.onMod fun m => m.always fun m => (m.sramErrors errs).bar4Read off len errs

/-- BAR4_WRITE (R231). -/
def execBar4Write (off : Nat) (data : List (Option Byte)) (s : State) : Host.Outcome State Fault Refusal :=
  s.onMod fun m => m.always fun m => m.bar4Write off data

/-- BAR4_ATOMICOP (R231). -/
def execBar4Atomicop (kind : BitVec 2) (wide : Bool) (off : Nat) (a b : W64) (s : State)
    : Host.Outcome State Fault Refusal :=
  s.onMod fun m => m.always fun m => m.bar4Atomic kind.toNat wide off a.toNat b.toNat

/-- BAR4_RESIZE (R430). -/
def execBar4Resize (log2 : Nat) (s : State) : Host.Outcome State Fault Refusal :=
  s.onMod fun m => m.always fun m => m.bar4Resize log2

/-- HOST_COMPLETION (R228). -/
def execHostCompletion (tag : Nat) (data : List Byte) (poisoned : Bool) (s : State) : Host.Outcome State Fault Refusal :=
  s.onMod fun m => m.engine fun m => m.hostCompletion tag data poisoned

/-- HOST_REQUEST_FAILED (R229). -/
def execHostRequestFailed (tag : Nat) (s : State) : Host.Outcome State Fault Refusal :=
  s.onMod fun m => m.engine fun m => m.hostFailed tag

/-- MEMORY_SIDE_WAKE (R203). -/
def execMemorySideWake (p : Fin 16) (s : State) : Host.Outcome State Fault Refusal :=
  s.onMod fun m => m.always fun m => m.sideWake p.val

/-- PATROL_SCRUB_READ (R223). -/
def execPatrolScrubRead (p : Fin 16) (bits : Nat) (late : Bool) (s : State) : Host.Outcome State Fault Refusal :=
  s.onMod fun m => m.engine fun m => m.patrolScrub p.val bits late

/-- SLICE_SCRUB (R223): the rule makes nothing of a slice's pass that ends late. -/
def execSliceScrub (p : Fin 16) (errs : List MemErr) (_late : Bool) (s : State) : Host.Outcome State Fault Refusal :=
  s.onMod fun m => m.engine fun m => m.sliceScrub p.val errs

/-- STACK_TEMP_SAMPLE (R224). -/
def execStackTempSample (p : Fin 16) (t : BitVec 8) (s : State) : Host.Outcome State Fault Refusal :=
  s.onMod fun m => m.always fun m => m.stackTemp p.val t.toNat

/-- STACK_COOLED_RETURN (R226). -/
def execStackCooledReturn (p : Fin 16) (s : State) : Host.Outcome State Fault Refusal :=
  s.onMod fun m => m.always fun m => m.stackCooled p.val

/-- STACK_PARITY_ERROR (R222). -/
def execStackParityError (p : Fin 16) (s : State) : Host.Outcome State Fault Refusal :=
  s.onMod fun m => m.always fun m => m.stackLost p.val

/-- STACK_PHY_LINK_LOSS (R222). -/
def execStackPhyLinkLoss (p : Fin 16) (s : State) : Host.Outcome State Fault Refusal :=
  s.onMod fun m => m.always fun m => m.stackLost p.val

end Sys2Proof.Machine
end

