-- ==== Sys2Proof/Machine/Observe.lean ====
section
/-! DEFINITION. Commands: Counter windows, trace, remote watch copies and the global stop (chapter 13), and writes to plain registers (R8).
Each is its own definition over the shared operations. -/

namespace Sys2Proof.Machine

/-- TRACE_IDLE_FLUSH: a streaming buffer sends its partial block (R405). -/
def Mod.idleFlush (m : Mod) (b : Nat) : Mod := if m.on F.TRC_BUF_stream_en b then m.traceFlush b else m

/-- COUNTER_WINDOW_END (R400). -/
def execCounterWindowEnd (s : State) : Host.Outcome State Fault Refusal :=
  s.onMod fun m => m.engine fun m => m.windowEnd

/-- TRC_MARK (R403). -/
def execTrcMark (value : W64) (s : State) : Host.Outcome State Fault Refusal :=
  s.onMod fun m => m.host Blk.TRC fun m => m.trcMark value.toNat

/-- TRC_FLUSH (R405). -/
def execTrcFlush (buffers : BitVec 17) (s : State) : Host.Outcome State Fault Refusal :=
  s.onMod fun m => m.host Blk.TRC fun m => m.trcFlush buffers.toNat

/-- TRACE_IDLE_FLUSH (R405). -/
def execTraceIdleFlush (b : Fin 17) (s : State) : Host.Outcome State Fault Refusal :=
  s.onMod fun m => m.engine fun m => m.idleFlush b.val

/-- WATCH_DATA_RECEIVE (R411). -/
def execWatchDataReceive (n : Fin 8) (pkt : Packet) (s : State) : Host.Outcome State Fault Refusal :=
  s.onMod fun m => m.engine fun m => m.arriveKind n.val pkt [0x30]

/-- WATCH_ACK_RECEIVE (R411). -/
def execWatchAckReceive (n : Fin 8) (pkt : Packet) (s : State) : Host.Outcome State Fault Refusal :=
  s.onMod fun m => m.engine fun m => m.arriveKind n.val pkt [0x31]

/-- WATCH_ACK_TIMEOUT (R411). -/
def execWatchAckTimeout (id : Nat) (s : State) : Host.Outcome State Fault Refusal :=
  s.onMod fun m => m.engine fun m => m.watchAnswer id false

/-- STOP_ARM (R412). -/
def execStopArm (s : State) : Host.Outcome State Fault Refusal :=
  s.onMod fun m => m.host Blk.TIME fun m => m.stopArm

/-- STOP_CANCEL (R412). -/
def execStopCancel (s : State) : Host.Outcome State Fault Refusal :=
  s.onMod fun m => m.host Blk.TIME fun m => m.stopCancel

/-- STOP_RELEASE (R416). -/
def execStopRelease (s : State) : Host.Outcome State Fault Refusal :=
  s.onMod fun m => m.host Blk.TIME fun m => m.stopRelease

/-- GLOBAL_STOP_TAKE (R413). -/
def execGlobalStopTake (s : State) : Host.Outcome State Fault Refusal :=
  s.onMod fun m => m.always fun m => m.stopTake

/-- GLOBAL_STOP_RESUME (R416). -/
def execGlobalStopResume (s : State) : Host.Outcome State Fault Refusal :=
  s.onMod fun m => m.always fun m => m.stopResume

/-- REGISTER_WRITE (R8). -/
def execRegisterWrite (a : RegAddr) (size : Nat) (value : W64) (s : State) : Host.Outcome State Fault Refusal :=
  s.onMod fun m => m.registerWrite a size value.toNat

end Sys2Proof.Machine
end

