-- ==== Sys2Proof/Machine/Recover.lean ====
section
/-! DEFINITION. Commands: Resets, timeouts, the deadlock detector, crash dumps and microcode (chapter 12).
Each is its own definition over the shared operations. -/

namespace Sys2Proof.Machine

/-- An access to BAR0 that goes unanswered. -/
def Mod.bar0 (m : Mod) (f : Mod → Mod) : Mod := if m.powered && m.pcie.link then f m else m

/-- MODULE_RESET (R368). -/
def execModuleReset (value : W32) (s : State) : Host.Outcome State Fault Refusal :=
  s.onMod fun m => m.host Blk.FLT fun m => m.moduleReset value.toNat

/-- PART_RESET (R364). -/
def execPartReset (p : Fin 16) (s : State) : Host.Outcome State Fault Refusal :=
  s.onMod fun m => m.host Blk.PART fun m => m.partReset p.val

/-- PART_RESET_COMPLETE (R365). -/
def execPartResetComplete (p : Fin 16) (s : State) : Host.Outcome State Fault Refusal :=
  s.onMod fun m => m.always fun m => m.partResetComplete p.val

/-- PART_ENABLE (R463). -/
def execPartEnable (p : Fin 16) (s : State) : Host.Outcome State Fault Refusal :=
  s.onMod fun m => m.host Blk.PART fun m => m.partEnable p.val

/-- PART_DISABLE (R463). -/
def execPartDisable (p : Fin 16) (s : State) : Host.Outcome State Fault Refusal :=
  s.onMod fun m => m.host Blk.PART fun m => m.partDisable p.val

/-- OP_TIMEOUT (R374). -/
def execOpTimeout (q : Fin 1024) (s : State) : Host.Outcome State Fault Refusal :=
  s.onMod fun m => m.engine fun m => m.opTimeout q.val

/-- SHARE_STOP_TIMEOUT (R374). -/
def execShareStopTimeout (q : Fin 1024) (parts : BitVec 16) (s : State) : Host.Outcome State Fault Refusal :=
  s.onMod fun m => m.engine fun m => m.shareStop q.val parts.toNat

/-- QUEUE_STALL (R373). -/
def execQueueStall (q : Fin 1024) (s : State) : Host.Outcome State Fault Refusal :=
  s.onMod fun m => m.engine fun m => m.queueStall q.val

/-- DEADLOCK_SCAN (R377). -/
def execDeadlockScan (s : State) : Host.Outcome State Fault Refusal :=
  s.onMod fun m => m.engine fun m => m.deadlockScan

/-- BAR0_NO_RESPONSE (R371). -/
def execBar0NoResponse (off : Nat) (write : Bool) (s : State) : Host.Outcome State Fault Refusal :=
  s.onMod fun m => m.bar0 fun m => m.bar0NoResponse off write

/-- ARMATURE_WATCHDOG_EXPIRY (R372). -/
def execArmatureWatchdogExpiry (s : State) : Host.Outcome State Fault Refusal :=
  s.onMod fun m => m.always fun m => m.armatureWatchdog

/-- DUMP_TRIGGER (R379). -/
def execDumpTrigger (s : State) : Host.Outcome State Fault Refusal :=
  s.onMod fun m => m.host Blk.DUMP fun m => m.dumpTrigger

/-- DUMP_DISCARD (R379). -/
def execDumpDiscard (s : State) : Host.Outcome State Fault Refusal :=
  s.onMod fun m => m.host Blk.DUMP fun m => m.dumpDiscard

/-- DUMP_CAPTURE_DONE (R380). -/
def execDumpCaptureDone (sections : List (List Byte × Option Nat)) (s : State) : Host.Outcome State Fault Refusal :=
  s.onMod fun m => m.always fun m => m.dumpDone sections

/-- UCODE_LOAD (R385). -/
def execUcodeLoad (p : Fin 16) (s : State) : Host.Outcome State Fault Refusal :=
  s.onMod fun m => m.host Blk.PART fun m => m.ucodeLoad p.val

/-- UCODE_PARKED (R385). -/
def execUcodeParked (p : Fin 16) (s : State) : Host.Outcome State Fault Refusal :=
  s.onMod fun m => m.engine fun m => m.ucodeParked p.val

/-- UCODE_PARK_TIMEOUT (R385). -/
def execUcodeParkTimeout (p : Fin 16) (s : State) : Host.Outcome State Fault Refusal :=
  s.onMod fun m => m.engine fun m => m.ucodeParkTimeout p.val

end Sys2Proof.Machine
end

