-- ==== Sys2Proof/Machine/Secure.lean ====
section
/-! DEFINITION. Commands: Bring-up, images, security, PCIe and what answers from outside (chapter 14).
Each is its own definition over the shared operations. -/

namespace Sys2Proof.Machine

/-- POWER_ON (R417). -/
def execPowerOn (s : State) : Host.Outcome State Fault Refusal :=
  s.onMod fun m => m.powerOn

/-- FLOW_CONFIRMED (R470). -/
def execFlowConfirmed (s : State) : Host.Outcome State Fault Refusal :=
  s.onMod fun m => m.flowConfirmed

/-- BRINGUP_READY (R417). -/
def execBringupReady (failed : BitVec 16) (s : State) : Host.Outcome State Fault Refusal :=
  s.onMod fun m => m.always fun m => m.bringupReady failed.toNat

/-- BOOT_VOLATILE_UPDATE (R444). -/
def execBootVolatileUpdate (target persist : Bool) (s : State) : Host.Outcome State Fault Refusal :=
  s.onMod fun m => m.host Blk.BOOT fun m => m.bootVolatile target persist

/-- BOOT_WRITE_FIRMWARE (R440). -/
def execBootWriteFirmware (s : State) : Host.Outcome State Fault Refusal :=
  s.onMod fun m => m.host Blk.BOOT fun m => m.bootFirmware

/-- BOOT_WRITE_CONFIG (R439). -/
def execBootWriteConfig (s : State) : Host.Outcome State Fault Refusal :=
  s.onMod fun m => m.host Blk.BOOT fun m => m.bootConfig

/-- BOOT_ERASE_LOG (R439). -/
def execBootEraseLog (s : State) : Host.Outcome State Fault Refusal :=
  s.onMod fun m => m.host Blk.BOOT fun m => m.bootErase

/-- BOOT_RECOVERY_RUN (R428). -/
def execBootRecoveryRun (s : State) : Host.Outcome State Fault Refusal :=
  s.onMod fun m => m.host Blk.BOOT fun m => m.bootRecover

/-- BOOT_RECOVERY_CONFIG (R428). -/
def execBootRecoveryConfig (s : State) : Host.Outcome State Fault Refusal :=
  s.onMod fun m => m.host Blk.BOOT fun m => m.bootRecoverCfg

/-- BOOT_COPY_FLASH (R422). -/
def execBootCopyFlash (flashOff : BitVec 27) (s : State) : Host.Outcome State Fault Refusal :=
  s.onMod fun m => m.host Blk.BOOT fun m => m.bootCopy flashOff.toNat

/-- SEC_PROVISION_OWNER (R439). -/
def execSecProvisionOwner (s : State) : Host.Outcome State Fault Refusal :=
  s.onMod fun m => m.host Blk.SEC fun m => m.secProvision

/-- SEC_REPLACE_OWNER (R439). -/
def execSecReplaceOwner (s : State) : Host.Outcome State Fault Refusal :=
  s.onMod fun m => m.host Blk.SEC fun m => m.secReplace

/-- SEC_WRITE_CHAIN (R439). -/
def execSecWriteChain (s : State) : Host.Outcome State Fault Refusal :=
  s.onMod fun m => m.host Blk.SEC fun m => m.secChain

/-- SEC_DEBUG_UNLOCK (R447). -/
def execSecDebugUnlock (s : State) : Host.Outcome State Fault Refusal :=
  s.onMod fun m => m.host Blk.SEC fun m => m.secUnlock

/-- SEC_DEBUG_RELOCK (R447). -/
def execSecDebugRelock (s : State) : Host.Outcome State Fault Refusal :=
  s.onMod fun m => m.host Blk.SEC fun m => m.secRelock

/-- SEC_RAISE_MIN_SVN (R439). -/
def execSecRaiseMinSvn (s : State) : Host.Outcome State Fault Refusal :=
  s.onMod fun m => m.host Blk.SEC fun m => m.secRaise

/-- PRESENCE_ASSERT (R437). -/
def execPresenceAssert (s : State) : Host.Outcome State Fault Refusal :=
  s.onMod fun m => m.presenceAssert

/-- PRESENCE_RELEASE (R437). -/
def execPresenceRelease (s : State) : Host.Outcome State Fault Refusal :=
  s.onMod fun m => m.presenceRelease

/-- PRESENCE_EXPIRY (R437). -/
def execPresenceExpiry (s : State) : Host.Outcome State Fault Refusal :=
  s.onMod fun m => m.presenceExpiry

/-- SEAL_CHECK (R438). -/
def execSealCheck (intact : Bool) (s : State) : Host.Outcome State Fault Refusal :=
  s.onMod fun m => m.sealCheck intact

/-- PERST_ASSERT (R432). -/
def execPerstAssert (s : State) : Host.Outcome State Fault Refusal :=
  s.onMod fun m => m.perstAssert.settle

/-- PERST_DEASSERT (R432). -/
def execPerstDeassert (s : State) : Host.Outcome State Fault Refusal :=
  s.onMod fun m => m.perstDeassert

/-- PCIE_LINK_DOWN (R432). -/
def execPcieLinkDown (s : State) : Host.Outcome State Fault Refusal :=
  s.onMod fun m => m.always fun m => m.pcieLinkDown

/-- PCIE_LINK_UP (R429). -/
def execPcieLinkUp (s : State) : Host.Outcome State Fault Refusal :=
  s.onMod fun m => m.always fun m => m.pcieLinkUp

/-- FLR_VF (R432). -/
def execFlrVf (v : Fin 64) (s : State) : Host.Outcome State Fault Refusal :=
  s.onMod fun m => m.always fun m => m.flrVf v.val

/-- FLR_PF0 (R432). -/
def execFlrPf0 (s : State) : Host.Outcome State Fault Refusal :=
  s.onMod fun m => m.always fun m => m.flrPf0

/-- VF_ENABLE (R431). -/
def execVfEnable (on : Bool) (num : BitVec 16) (s : State) : Host.Outcome State Fault Refusal :=
  s.onMod fun m => m.always fun m => m.vfEnable on num.toNat

/-- MSIX_UNMASK (R433). -/
def execMsixUnmask (fn : Option (Fin 64)) (vec : Nat) (s : State) : Host.Outcome State Fault Refusal :=
  s.onMod fun m => m.always fun m => m.msixUnmask (match fn with | some v => v.val + 1 | none => 0) vec

/-- JTAG_BOUNDARY_SELECT (R446). -/
def execJtagBoundarySelect (s : State) : Host.Outcome State Fault Refusal :=
  s.onMod fun m => m.jtagSelect.settle

/-- PLDM_SENSOR_READ (R435). -/
def execPldmSensorRead (s : State) : Host.Outcome State Fault Refusal :=
  s.onMod fun m => m.pldmSensors

/-- GET_VERSION (R441). -/
def execGetVersion (ch : Chan) (s : State) : Host.Outcome State Fault Refusal :=
  s.onMod fun m => m.getVersion ch

/-- GET_CAPABILITIES (R441). -/
def execGetCapabilities (ch : Chan) (_flags : W32) (s : State) : Host.Outcome State Fault Refusal :=
  s.onMod fun m => m.getCapabilities ch

/-- NEGOTIATE_ALGORITHMS (R441). -/
def execNegotiateAlgorithms (ch : Chan) (measSpec : Byte) (asym hash : W32) (s : State) : Host.Outcome State Fault Refusal :=
  s.onMod fun m => m.negotiate ch measSpec.toNat asym.toNat hash.toNat

/-- GET_DIGESTS (R441). -/
def execGetDigests (ch : Chan) (s : State) : Host.Outcome State Fault Refusal :=
  s.onMod fun m => m.getDigests ch

/-- GET_CERTIFICATE (R442). -/
def execGetCertificate (ch : Chan) (slot off len : Nat) (s : State) : Host.Outcome State Fault Refusal :=
  s.onMod fun m => m.getCertificate ch slot off len

/-- CHALLENGE (R441). -/
def execChallenge (ch : Chan) (slot : Nat) (measType : Byte) (nonce : List Byte) (s : State)
    : Host.Outcome State Fault Refusal :=
  s.onMod fun m => m.challenge ch slot measType.toNat nonce

/-- GET_MEASUREMENTS (R443). -/
def execGetMeasurements (ch : Chan) (attr op : Byte) (nonce : List Byte) (slot : Nat) (s : State)
    : Host.Outcome State Fault Refusal :=
  s.onMod fun m => m.getMeasurements ch attr.toNat op.toNat nonce slot

/-- SPDM_UNSUPPORTED_REQUEST (R441). -/
def execSpdmUnsupportedRequest (ch : Chan) (code : Byte) (s : State) : Host.Outcome State Fault Refusal :=
  s.onMod fun m => m.spdmUnsupported ch code.toNat

/-- VENDOR_READ_FAULT_LOG (R435). -/
def execVendorReadFaultLog (index : Nat) (s : State) : Host.Outcome State Fault Refusal :=
  s.onMod fun m => m.vendorFaultLog index

/-- VENDOR_READ_EVENT_LOG (R435). -/
def execVendorReadEventLog (sector count : Nat) (s : State) : Host.Outcome State Fault Refusal :=
  s.onMod fun m => m.vendorEventLog sector count

/-- VENDOR_READ_DUMP (R435). -/
def execVendorReadDump (page : BitVec 8) (s : State) : Host.Outcome State Fault Refusal :=
  s.onMod fun m => m.vendorDump page.toNat

/-- VENDOR_READ_STATUS (R435). -/
def execVendorReadStatus (s : State) : Host.Outcome State Fault Refusal :=
  s.onMod fun m => m.vendorStatus

/-- DOE_DISCOVERY (R441). -/
def execDoeDiscovery (index : Byte) (s : State) : Host.Outcome State Fault Refusal :=
  s.onMod fun m => m.doeDiscovery index.toNat

/-- MCTP_ENDPOINT_ID_ASSIGN (R435). -/
def execMctpEndpointIdAssign (eid : Byte) (s : State) : Host.Outcome State Fault Refusal :=
  s.onMod fun m => m.assignEid eid

/-- CALIBRATION_RECORD_WRITE (R423). -/
def execCalibrationRecordWrite (s : State) : Host.Outcome State Fault Refusal :=
  s.onMod fun m => m.always fun m => m.calRecord

end Sys2Proof.Machine
end

