-- ==== Sys2Proof/Machine/Supply.lean ====
section
/-! DEFINITION. Commands: Power, cooling and clocks (chapter 15).
Each is its own definition over the shared operations. -/

namespace Sys2Proof.Machine

/-- An event that the always-on domain acts on, as well while it waits for flow or after a brown-out (R468, R470). -/
def Mod.aon (m : Mod) (f : Mod → Mod) : Mod :=
  if m.alive || m.pwr.rails == .brownout then (f m).settle else m

/-- POWER_SAMPLE (R456). -/
def execPowerSample (volts10mv amps10ma : BitVec 16) (s : State) : Host.Outcome State Fault Refusal :=
  s.onMod fun m => m.always fun m => m.powerSample volts10mv.toNat amps10ma.toNat

/-- INPUT_OVERVOLTAGE (R452). -/
def execInputOvervoltage (s : State) : Host.Outcome State Fault Refusal :=
  s.onMod fun m => m.overvoltage

/-- BROWNOUT (R453). -/
def execBrownout (s : State) : Host.Outcome State Fault Refusal :=
  s.onMod fun m => m.brownout

/-- BROWNOUT_RETURN (R453). -/
def execBrownoutReturn (s : State) : Host.Outcome State Fault Refusal :=
  s.onMod fun m => m.brownoutReturn

/-- DIE_TEMP_SAMPLE (R467). -/
def execDieTempSample (temps : List (BitVec 8)) (s : State) : Host.Outcome State Fault Refusal :=
  s.onMod fun m => m.aon fun m => m.dieTemps temps

/-- COOLANT_SAMPLE (R470). -/
def execCoolantSample (flowMl : BitVec 16) (inlet outlet : BitVec 8) (s : State) : Host.Outcome State Fault Refusal :=
  s.onMod fun m => m.aon fun m => m.coolant flowMl.toNat inlet.toNat outlet.toNat

/-- REF_CLOCK_LOSS (R466). -/
def execRefClockLoss (s : State) : Host.Outcome State Fault Refusal :=
  s.onMod fun m => m.refLoss

/-- PWR_MS_TARGET (R460). -/
def execPwrMsTarget (target : BitVec 2) (s : State) : Host.Outcome State Fault Refusal :=
  s.onMod fun m => m.host Blk.PWR fun m => m.msTarget target.toNat

/-- MS_TRANSITION_DONE (R460). -/
def execMsTransitionDone (s : State) : Host.Outcome State Fault Refusal :=
  s.onMod fun m => m.always fun m => m.msDone

/-- PART_CLOCK_GATE (R462). -/
def execPartClockGate (p : Fin 16) (s : State) : Host.Outcome State Fault Refusal :=
  s.onMod fun m => m.engine fun m => m.clockGate p.val

/-- PART_POWER_GATE (R462). -/
def execPartPowerGate (p : Fin 16) (s : State) : Host.Outcome State Fault Refusal :=
  s.onMod fun m => m.engine fun m => m.powerGate p.val

/-- PART_WAKE (R462). -/
def execPartWake (p : Fin 16) (s : State) : Host.Outcome State Fault Refusal :=
  s.onMod fun m => m.engine fun m => m.partWake p.val

/-- ALWAYS_ON_POWER_LOSS (R468). -/
def execAlwaysOnPowerLoss (s : State) : Host.Outcome State Fault Refusal :=
  s.onMod fun m => m.alwaysOnLoss

end Sys2Proof.Machine
end

