-- ==== Sys2Proof/Machine/Train.lean ====
section
/-! DEFINITION. Commands: Collectives, the update phase, steps, votes and flips (chapters 9, 10).
Each is its own definition over the shared operations. -/

namespace Sys2Proof.Machine

/-- COLL_TIMEOUT: what is named by its queue ends first, then the span reductions of its context, then an exchange of its
update phase (R375). -/
def Mod.collTimeout (m : Mod) (i : Nat) : Mod :=
  let c := qCtx i
  let x := m.ctx c
  let t := m.summary F.FLT_SUMMARY_timeout
  let mine (code : Nat → Bool) : Bool := match (m.queue i).op with | some o => code (Rc.opcode o.rcd) && !o.ready | none => false
  let dead (m : Mod) (o : Option Op) : Mod := match o with
    | some o => if Rc.opcode o.rcd = 0x55 && RuRec.local_ o.rcd then m else m.tagDead c (CoRec.tag o.rcd)
    | none => m
  if mine fun k => decide (0x50 ≤ k) && decide (k ≤ 0x55) then
    ((dead t (m.queue i).op).jobAbort (.q i) ST_COLL_TIMEOUT).complete i
  else if mine (· == 0x62) && x.vote.isSome then (t.voteEnd c ST_COLL_TIMEOUT).complete i
  else if x.normRed.isSome then
    (t.setCtx c { t.ctx c with normRed := none, updErr := true }).spanForget c 1
  else if x.castRed.isSome then t.genAbandon c ST_COLL_TIMEOUT
  else match (List.range x.layers.length).find? fun k => match x.layers[k]? with | some o => o.co.ring.isSome | none => false with
    | some k => (dead t x.layers[k]?).jobAbort (.layer c k) ST_COLL_TIMEOUT
    | none => m

/-- ALL_REDUCE (R280). -/
def execAllReduce (q : Fin 1024) (errs : List MemErr) (s : State) : Host.Outcome State Fault Refusal :=
  s.onMod fun m => m.engine fun m => (m.sramErrors errs).issueColl q.val 0x50 errs

/-- REDUCE_SCATTER (R280). -/
def execReduceScatter (q : Fin 1024) (errs : List MemErr) (s : State) : Host.Outcome State Fault Refusal :=
  s.onMod fun m => m.engine fun m => (m.sramErrors errs).issueColl q.val 0x51 errs

/-- ALL_GATHER (R283). -/
def execAllGather (q : Fin 1024) (errs : List MemErr) (s : State) : Host.Outcome State Fault Refusal :=
  s.onMod fun m => m.engine fun m => (m.sramErrors errs).issueColl q.val 0x52 errs

/-- ALL_TO_ALL (R283). -/
def execAllToAll (q : Fin 1024) (errs : List MemErr) (s : State) : Host.Outcome State Fault Refusal :=
  s.onMod fun m => m.engine fun m => (m.sramErrors errs).issueColl q.val 0x53 errs

/-- BROADCAST (R283). -/
def execBroadcast (q : Fin 1024) (errs : List MemErr) (s : State) : Host.Outcome State Fault Refusal :=
  s.onMod fun m => m.engine fun m => (m.sramErrors errs).issueColl q.val 0x54 errs

/-- REDUCE_UPDATE (R289). -/
def execReduceUpdate (q : Fin 1024) (errs : List MemErr) (s : State) : Host.Outcome State Fault Refusal :=
  s.onMod fun m => m.engine fun m => (m.sramErrors errs).issueReduceUpdate q.val errs

/-- STEP_BEGIN (R190). -/
def execStepBegin (q : Fin 1024) (s : State) : Host.Outcome State Fault Refusal :=
  s.onMod fun m => m.engine fun m => m.issueStepBegin q.val

/-- STEP_END (R296). -/
def execStepEnd (q : Fin 1024) (s : State) : Host.Outcome State Fault Refusal :=
  s.onMod fun m => m.engine fun m => m.issueStepEnd q.val

/-- VOTE (R318). -/
def execVote (q : Fin 1024) (s : State) : Host.Outcome State Fault Refusal :=
  s.onMod fun m => m.engine fun m => m.issueVote q.val

/-- FLIP (R322). -/
def execFlip (q : Fin 1024) (s : State) : Host.Outcome State Fault Refusal :=
  s.onMod fun m => m.engine fun m => m.issueFlip q.val

/-- COLL_ENGINE_START (R273). -/
def execCollEngineStart (e : Fin 8) (s : State) : Host.Outcome State Fault Refusal :=
  s.onMod fun m => m.engine fun m => m.engineStart e.val

/-- COLL_READY_RECEIVE (R275). -/
def execCollReadyReceive (n : Fin 8) (pkt : Packet) (s : State) : Host.Outcome State Fault Refusal :=
  s.onMod fun m => m.engine fun m => m.arriveKind n.val pkt [0x10]

/-- COLL_DATA_RECEIVE (R279). -/
def execCollDataReceive (n : Fin 8) (pkt : Packet) (s : State) : Host.Outcome State Fault Refusal :=
  s.onMod fun m => m.engine fun m => m.arriveKind n.val pkt [0x11]

/-- GATHER_ROWS_RECEIVE (R289). -/
def execGatherRowsReceive (n : Fin 8) (pkt : Packet) (s : State) : Host.Outcome State Fault Refusal :=
  s.onMod fun m => m.engine fun m => m.arriveKind n.val pkt [0x13]

/-- SPAN_RECEIVE (R297). -/
def execSpanReceive (n : Fin 8) (pkt : Packet) (s : State) : Host.Outcome State Fault Refusal :=
  s.onMod fun m => m.engine fun m => m.arriveKind n.val pkt [0x12]

/-- COLL_TIMEOUT (R375). -/
def execCollTimeout (q : Fin 1024) (s : State) : Host.Outcome State Fault Refusal :=
  s.onMod fun m => m.engine fun m => m.collTimeout q.val

/-- UPDATE_PHASE_DONE (R296). -/
def execUpdatePhaseDone (c : Fin 64) (s : State) : Host.Outcome State Fault Refusal :=
  s.onMod fun m => m.engine fun m => m.updPhaseDone c.val

/-- VERDICT_FIXED (R317). -/
def execVerdictFixed (c : Fin 64) (s : State) : Host.Outcome State Fault Refusal :=
  s.onMod fun m => m.engine fun m => m.verdictFix c.val

/-- STEP_VETO (R315). -/
def execStepVeto (c : Fin 64) (s : State) : Host.Outcome State Fault Refusal :=
  s.onMod fun m => m.host Blk.STEP fun m => m.stepVeto c.val

/-- STEP_ABANDON (R319). -/
def execStepAbandon (c : Fin 64) (s : State) : Host.Outcome State Fault Refusal :=
  s.onMod fun m => m.host Blk.STEP fun m => m.stepAbandon c.val

/-- STEP_CLOSE (R323). -/
def execStepClose (c : Fin 64) (s : State) : Host.Outcome State Fault Refusal :=
  s.onMod fun m => m.host Blk.STEP fun m => m.stepClose c.val

/-- CLOSE_TAKES_EFFECT (R323). -/
def execCloseTakesEffect (c : Fin 64) (s : State) : Host.Outcome State Fault Refusal :=
  s.onMod fun m => m.engine fun m => m.closeNow c.val

/-- STEP_CLEAR_HALT (R323). -/
def execStepClearHalt (c : Fin 64) (s : State) : Host.Outcome State Fault Refusal :=
  s.onMod fun m => m.host Blk.STEP fun m => m.stepClearHalt c.val

/-- STEP_SET (R324). -/
def execStepSet (c : Fin 64) (value : W64) (s : State) : Host.Outcome State Fault Refusal :=
  s.onMod fun m => m.host Blk.STEP fun m => m.stepSet c.val value.toNat

end Sys2Proof.Machine
end

