-- ==== Sys2Proof/Machine/Dispatch.lean ====
section
/-! DEFINITION. One arm per command, each a direct call of its meaning. -/

namespace Sys2Proof.Machine

def exec (i : Instr) (s : State) : Host.Outcome State Fault Refusal :=
  match i with
  | .nop q => Sys2Proof.Machine.execNop q s
  | .matmul q errs => Sys2Proof.Machine.execMatmul q errs s
  | .bmatmul q errs => Sys2Proof.Machine.execBmatmul q errs s
  | .conv q errs => Sys2Proof.Machine.execConv q errs s
  | .attn q errs => Sys2Proof.Machine.execAttn q errs s
  | .eltwise q errs => Sys2Proof.Machine.execEltwise q errs s
  | .reduce q errs => Sys2Proof.Machine.execReduce q errs s
  | .norm q errs => Sys2Proof.Machine.execNorm q errs s
  | .softmax q errs => Sys2Proof.Machine.execSoftmax q errs s
  | .copy q errs => Sys2Proof.Machine.execCopy q errs s
  | .gather q errs => Sys2Proof.Machine.execGather q errs s
  | .scatter q errs => Sys2Proof.Machine.execScatter q errs s
  | .transpose q errs => Sys2Proof.Machine.execTranspose q errs s
  | .hostXfer q errs => Sys2Proof.Machine.execHostXfer q errs s
  | .prefetchList q => Sys2Proof.Machine.execPrefetchList q s
  | .scatterReduce q errs => Sys2Proof.Machine.execScatterReduce q errs s
  | .atomicCas q errs => Sys2Proof.Machine.execAtomicCas q errs s
  | .allReduce q errs => Sys2Proof.Machine.execAllReduce q errs s
  | .reduceScatter q errs => Sys2Proof.Machine.execReduceScatter q errs s
  | .allGather q errs => Sys2Proof.Machine.execAllGather q errs s
  | .allToAll q errs => Sys2Proof.Machine.execAllToAll q errs s
  | .broadcast q errs => Sys2Proof.Machine.execBroadcast q errs s
  | .reduceUpdate q errs => Sys2Proof.Machine.execReduceUpdate q errs s
  | .stepBegin q => Sys2Proof.Machine.execStepBegin q s
  | .stepEnd q => Sys2Proof.Machine.execStepEnd q s
  | .vote q => Sys2Proof.Machine.execVote q s
  | .flip q => Sys2Proof.Machine.execFlip q s
  | .interlude q => Sys2Proof.Machine.execInterlude q s
  | .descWrite q => Sys2Proof.Machine.execDescWrite q s
  | .streamWrite q => Sys2Proof.Machine.execStreamWrite q s
  | .groupWrite q => Sys2Proof.Machine.execGroupWrite q s
  | .watchWrite q => Sys2Proof.Machine.execWatchWrite q s
  | .opComplete q => Sys2Proof.Machine.execOpComplete q s
  | .fallback q errs => Sys2Proof.Machine.execFallback q errs s
  | .prefetchListDone c layer => Sys2Proof.Machine.execPrefetchListDone c layer s
  | .collEngineStart e => Sys2Proof.Machine.execCollEngineStart e s
  | .dbTailWrite d value => Sys2Proof.Machine.execDbTailWrite d value s
  | .dbResumeSkip d => Sys2Proof.Machine.execDbResumeSkip d s
  | .dbResumeRetry d => Sys2Proof.Machine.execDbResumeRetry d s
  | .dbFlagValWrite d value => Sys2Proof.Machine.execDbFlagValWrite d value s
  | .dbFlagAddWrite d value => Sys2Proof.Machine.execDbFlagAddWrite d value s
  | .flgValWrite f value => Sys2Proof.Machine.execFlgValWrite f value s
  | .flgAddWrite f value => Sys2Proof.Machine.execFlgAddWrite f value s
  | .ctxEnable c => Sys2Proof.Machine.execCtxEnable c s
  | .ctxTeardown c => Sys2Proof.Machine.execCtxTeardown c s
  | .teardownQuiesced c => Sys2Proof.Machine.execTeardownQuiesced c s
  | .teardownTimeout c silent => Sys2Proof.Machine.execTeardownTimeout c silent s
  | .regionWrite c n => Sys2Proof.Machine.execRegionWrite c n s
  | .regionRead c n => Sys2Proof.Machine.execRegionRead c n s
  | .queueEnable q cfg => Sys2Proof.Machine.execQueueEnable q cfg s
  | .queueDisable q => Sys2Proof.Machine.execQueueDisable q s
  | .tdtCmd entry => Sys2Proof.Machine.execTdtCmd entry s
  | .contextSwitch p => Sys2Proof.Machine.execContextSwitch p s
  | .interludeBudgetExpiry e => Sys2Proof.Machine.execInterludeBudgetExpiry e s
  | .zoneCommit => Sys2Proof.Machine.execZoneCommit s
  | .bar4Read off len errs => Sys2Proof.Machine.execBar4Read off len errs s
  | .bar4Write off data => Sys2Proof.Machine.execBar4Write off data s
  | .bar4Atomicop kind wide off a b => Sys2Proof.Machine.execBar4Atomicop kind wide off a b s
  | .bar4Resize log2 => Sys2Proof.Machine.execBar4Resize log2 s
  | .hostCompletion tag data poisoned => Sys2Proof.Machine.execHostCompletion tag data poisoned s
  | .hostRequestFailed tag => Sys2Proof.Machine.execHostRequestFailed tag s
  | .memorySideWake p => Sys2Proof.Machine.execMemorySideWake p s
  | .patrolScrubRead p bits late => Sys2Proof.Machine.execPatrolScrubRead p bits late s
  | .sliceScrub p errs late => Sys2Proof.Machine.execSliceScrub p errs late s
  | .stackTempSample p t => Sys2Proof.Machine.execStackTempSample p t s
  | .stackCooledReturn p => Sys2Proof.Machine.execStackCooledReturn p s
  | .portEnable n => Sys2Proof.Machine.execPortEnable n s
  | .portDisable n => Sys2Proof.Machine.execPortDisable n s
  | .portRetrain n => Sys2Proof.Machine.execPortRetrain n s
  | .portFence n => Sys2Proof.Machine.execPortFence n s
  | .portUnfence n => Sys2Proof.Machine.execPortUnfence n s
  | .peerDetected n maxMode => Sys2Proof.Machine.execPeerDetected n maxMode s
  | .trainingComplete n failed ident => Sys2Proof.Machine.execTrainingComplete n failed ident s
  | .laneFail n lanes => Sys2Proof.Machine.execLaneFail n lanes s
  | .dataFlitReceive n flit => Sys2Proof.Machine.execDataFlitReceive n flit s
  | .nakReceive n flit lanes => Sys2Proof.Machine.execNakReceive n flit lanes s
  | .keepaliveSend n => Sys2Proof.Machine.execKeepaliveSend n s
  | .keepaliveReceive n flit => Sys2Proof.Machine.execKeepaliveReceive n flit s
  | .keepaliveTimeout n => Sys2Proof.Machine.execKeepaliveTimeout n s
  | .autoRetrain n => Sys2Proof.Machine.execAutoRetrain n s
  | .packetReceive n vc cls pkt => Sys2Proof.Machine.execPacketReceive n vc cls pkt s
  | .linkNoticeReceive n pkt => Sys2Proof.Machine.execLinkNoticeReceive n pkt s
  | .discoveryReceive n pkt => Sys2Proof.Machine.execDiscoveryReceive n pkt s
  | .joinWindowExpiry => Sys2Proof.Machine.execJoinWindowExpiry s
  | .electionTimeout => Sys2Proof.Machine.execElectionTimeout s
  | .routeLoadStaging => Sys2Proof.Machine.execRouteLoadStaging s
  | .routeCommitLocal => Sys2Proof.Machine.execRouteCommitLocal s
  | .routeCommitBroadcast => Sys2Proof.Machine.execRouteCommitBroadcast s
  | .routeClearAuto => Sys2Proof.Machine.execRouteClearAuto s
  | .routeBroadcastReceive n pkt => Sys2Proof.Machine.execRouteBroadcastReceive n pkt s
  | .genWr c value => Sys2Proof.Machine.execGenWr c value s
  | .linkWatchdogExpiry d => Sys2Proof.Machine.execLinkWatchdogExpiry d s
  | .collReadyReceive n pkt => Sys2Proof.Machine.execCollReadyReceive n pkt s
  | .collDataReceive n pkt => Sys2Proof.Machine.execCollDataReceive n pkt s
  | .gatherRowsReceive n pkt => Sys2Proof.Machine.execGatherRowsReceive n pkt s
  | .spanReceive n pkt => Sys2Proof.Machine.execSpanReceive n pkt s
  | .collTimeout q => Sys2Proof.Machine.execCollTimeout q s
  | .updatePhaseDone c => Sys2Proof.Machine.execUpdatePhaseDone c s
  | .verdictFixed c => Sys2Proof.Machine.execVerdictFixed c s
  | .stepVeto c => Sys2Proof.Machine.execStepVeto c s
  | .stepAbandon c => Sys2Proof.Machine.execStepAbandon c s
  | .stepClose c => Sys2Proof.Machine.execStepClose c s
  | .closeTakesEffect c => Sys2Proof.Machine.execCloseTakesEffect c s
  | .stepClearHalt c => Sys2Proof.Machine.execStepClearHalt c s
  | .stepSet c value => Sys2Proof.Machine.execStepSet c value s
  | .castLoad c blank => Sys2Proof.Machine.execCastLoad c blank s
  | .castUnload c => Sys2Proof.Machine.execCastUnload c s
  | .castRestore c checkToken => Sys2Proof.Machine.execCastRestore c checkToken s
  | .restoreComplete c => Sys2Proof.Machine.execRestoreComplete c s
  | .castDataReceive n pkt => Sys2Proof.Machine.execCastDataReceive n pkt s
  | .castDeltaReceive n pkt => Sys2Proof.Machine.execCastDeltaReceive n pkt s
  | .castRecReceive n pkt => Sys2Proof.Machine.execCastRecReceive n pkt s
  | .castDoneReceive n pkt => Sys2Proof.Machine.execCastDoneReceive n pkt s
  | .castAckReceive n pkt => Sys2Proof.Machine.execCastAckReceive n pkt s
  | .castFetchReceive n pkt => Sys2Proof.Machine.execCastFetchReceive n pkt s
  | .castAbandonTimeout c => Sys2Proof.Machine.execCastAbandonTimeout c s
  | .moduleReset value => Sys2Proof.Machine.execModuleReset value s
  | .partReset p => Sys2Proof.Machine.execPartReset p s
  | .partResetComplete p => Sys2Proof.Machine.execPartResetComplete p s
  | .partEnable p => Sys2Proof.Machine.execPartEnable p s
  | .partDisable p => Sys2Proof.Machine.execPartDisable p s
  | .opTimeout q => Sys2Proof.Machine.execOpTimeout q s
  | .shareStopTimeout q parts => Sys2Proof.Machine.execShareStopTimeout q parts s
  | .queueStall q => Sys2Proof.Machine.execQueueStall q s
  | .deadlockScan => Sys2Proof.Machine.execDeadlockScan s
  | .bar0NoResponse off write => Sys2Proof.Machine.execBar0NoResponse off write s
  | .armatureWatchdogExpiry => Sys2Proof.Machine.execArmatureWatchdogExpiry s
  | .dumpTrigger => Sys2Proof.Machine.execDumpTrigger s
  | .dumpDiscard => Sys2Proof.Machine.execDumpDiscard s
  | .dumpCaptureDone sections => Sys2Proof.Machine.execDumpCaptureDone sections s
  | .ucodeLoad p => Sys2Proof.Machine.execUcodeLoad p s
  | .ucodeParked p => Sys2Proof.Machine.execUcodeParked p s
  | .ucodeParkTimeout p => Sys2Proof.Machine.execUcodeParkTimeout p s
  | .counterWindowEnd => Sys2Proof.Machine.execCounterWindowEnd s
  | .trcMark value => Sys2Proof.Machine.execTrcMark value s
  | .trcFlush buffers => Sys2Proof.Machine.execTrcFlush buffers s
  | .traceIdleFlush b => Sys2Proof.Machine.execTraceIdleFlush b s
  | .watchDataReceive n pkt => Sys2Proof.Machine.execWatchDataReceive n pkt s
  | .watchAckReceive n pkt => Sys2Proof.Machine.execWatchAckReceive n pkt s
  | .watchAckTimeout id => Sys2Proof.Machine.execWatchAckTimeout id s
  | .stopArm => Sys2Proof.Machine.execStopArm s
  | .stopCancel => Sys2Proof.Machine.execStopCancel s
  | .stopRelease => Sys2Proof.Machine.execStopRelease s
  | .globalStopTake => Sys2Proof.Machine.execGlobalStopTake s
  | .globalStopResume => Sys2Proof.Machine.execGlobalStopResume s
  | .powerOn => Sys2Proof.Machine.execPowerOn s
  | .flowConfirmed => Sys2Proof.Machine.execFlowConfirmed s
  | .bringupReady failed => Sys2Proof.Machine.execBringupReady failed s
  | .bootVolatileUpdate target persist => Sys2Proof.Machine.execBootVolatileUpdate target persist s
  | .bootWriteFirmware => Sys2Proof.Machine.execBootWriteFirmware s
  | .bootWriteConfig => Sys2Proof.Machine.execBootWriteConfig s
  | .bootEraseLog => Sys2Proof.Machine.execBootEraseLog s
  | .bootRecoveryRun => Sys2Proof.Machine.execBootRecoveryRun s
  | .bootRecoveryConfig => Sys2Proof.Machine.execBootRecoveryConfig s
  | .bootCopyFlash flashOff => Sys2Proof.Machine.execBootCopyFlash flashOff s
  | .secProvisionOwner => Sys2Proof.Machine.execSecProvisionOwner s
  | .secReplaceOwner => Sys2Proof.Machine.execSecReplaceOwner s
  | .secWriteChain => Sys2Proof.Machine.execSecWriteChain s
  | .secDebugUnlock => Sys2Proof.Machine.execSecDebugUnlock s
  | .secDebugRelock => Sys2Proof.Machine.execSecDebugRelock s
  | .secRaiseMinSvn => Sys2Proof.Machine.execSecRaiseMinSvn s
  | .presenceAssert => Sys2Proof.Machine.execPresenceAssert s
  | .presenceRelease => Sys2Proof.Machine.execPresenceRelease s
  | .presenceExpiry => Sys2Proof.Machine.execPresenceExpiry s
  | .sealCheck intact => Sys2Proof.Machine.execSealCheck intact s
  | .perstAssert => Sys2Proof.Machine.execPerstAssert s
  | .perstDeassert => Sys2Proof.Machine.execPerstDeassert s
  | .pcieLinkDown => Sys2Proof.Machine.execPcieLinkDown s
  | .flrVf v => Sys2Proof.Machine.execFlrVf v s
  | .flrPf0 => Sys2Proof.Machine.execFlrPf0 s
  | .msixUnmask fn vec => Sys2Proof.Machine.execMsixUnmask fn vec s
  | .jtagBoundarySelect => Sys2Proof.Machine.execJtagBoundarySelect s
  | .pldmSensorRead => Sys2Proof.Machine.execPldmSensorRead s
  | .getVersion ch => Sys2Proof.Machine.execGetVersion ch s
  | .getCapabilities ch flags => Sys2Proof.Machine.execGetCapabilities ch flags s
  | .negotiateAlgorithms ch measSpec asym hash => Sys2Proof.Machine.execNegotiateAlgorithms ch measSpec asym hash s
  | .getDigests ch => Sys2Proof.Machine.execGetDigests ch s
  | .getCertificate ch slot off len => Sys2Proof.Machine.execGetCertificate ch slot off len s
  | .challenge ch slot measType nonce => Sys2Proof.Machine.execChallenge ch slot measType nonce s
  | .getMeasurements ch attr op nonce slot => Sys2Proof.Machine.execGetMeasurements ch attr op nonce slot s
  | .spdmUnsupportedRequest ch code => Sys2Proof.Machine.execSpdmUnsupportedRequest ch code s
  | .vendorReadFaultLog index => Sys2Proof.Machine.execVendorReadFaultLog index s
  | .vendorReadEventLog sector count => Sys2Proof.Machine.execVendorReadEventLog sector count s
  | .vendorReadDump page => Sys2Proof.Machine.execVendorReadDump page s
  | .vendorReadStatus => Sys2Proof.Machine.execVendorReadStatus s
  | .powerSample volts10mv amps10ma => Sys2Proof.Machine.execPowerSample volts10mv amps10ma s
  | .inputOvervoltage => Sys2Proof.Machine.execInputOvervoltage s
  | .brownout => Sys2Proof.Machine.execBrownout s
  | .brownoutReturn => Sys2Proof.Machine.execBrownoutReturn s
  | .dieTempSample temps => Sys2Proof.Machine.execDieTempSample temps s
  | .coolantSample flowMl inlet outlet => Sys2Proof.Machine.execCoolantSample flowMl inlet outlet s
  | .refClockLoss => Sys2Proof.Machine.execRefClockLoss s
  | .pwrMsTarget target => Sys2Proof.Machine.execPwrMsTarget target s
  | .msTransitionDone => Sys2Proof.Machine.execMsTransitionDone s
  | .partClockGate p => Sys2Proof.Machine.execPartClockGate p s
  | .partPowerGate p => Sys2Proof.Machine.execPartPowerGate p s
  | .partWake p => Sys2Proof.Machine.execPartWake p s
  | .registerWrite a size value => Sys2Proof.Machine.execRegisterWrite a size value s
  | .alwaysOnPowerLoss => Sys2Proof.Machine.execAlwaysOnPowerLoss s
  | .pcieLinkUp => Sys2Proof.Machine.execPcieLinkUp s
  | .vfEnable on num => Sys2Proof.Machine.execVfEnable on num s
  | .stackParityError p => Sys2Proof.Machine.execStackParityError p s
  | .stackPhyLinkLoss p => Sys2Proof.Machine.execStackPhyLinkLoss p s
  | .idleFlitReceive n flit => Sys2Proof.Machine.execIdleFlitReceive n flit s
  | .doeDiscovery index => Sys2Proof.Machine.execDoeDiscovery index s
  | .mctpEndpointIdAssign eid => Sys2Proof.Machine.execMctpEndpointIdAssign eid s
  | .calibrationRecordWrite => Sys2Proof.Machine.execCalibrationRecordWrite s

end Sys2Proof.Machine
end

