-- ==== Sys2Proof/Machine/Step.lean ====
section
/-! DEFINITION. The step: one waiting command is taken from the front of the queue and executed; with none waiting the block
idles for one nanosecond (log entry 1). -/

namespace Sys2Proof.Machine

/-- One nanosecond without a command: the time base advances while the module is powered (R389). -/
def idle (s : State) : State := { s with mod := s.mod.tick }

/-- One step of the block. -/
def step (s : State) : Host.Outcome State Fault Refusal :=
  match s.pending with
  | [] => .next (idle s)
  | c :: rest => exec c { s with pending := rest }

/-- The state with the command that a word spells put at the front of the queue; no word spells one. -/
def State.withFetchWord (s : State) (nbits w : Nat) : State :=
  match decodeTableWord nbits w with
  | some c => { s with pending := c :: s.pending }
  | none => s

end Sys2Proof.Machine
end

