-- ==== Sys2Proof/Safety.lean ====
section
/-! DEFINITION. The terms in which claims speak of a run: when a command reaches its block, when a record issues, what a
command leaves, when nothing waits, and the invariants that every step keeps. -/

namespace Sys2Proof.Machine

/-- The state that a command leaves which changes the module to `m`: the pins follow (Table 15.12), the queue of commands is
as it was. -/
def State.leave (s : State) (m : Mod) : State := { s with mod := m, pins := m.pins }

/-- Whether a write of host software to a register of block `blk` takes effect: the module is powered with its PCIe link up, has
reached bring-up step 5 outside recovery mode, and no global stop holds the block (R12, R371, R414, R427). -/
def Mod.hostOpen (m : Mod) (blk : Nat) : Bool :=
  m.powered && m.pcie.link && !m.inRecovery && decide (5 ≤ m.get F.BOOT_STAT_step) && (!m.stopped || stopBlocks.contains blk)

/-- Whether a write to doorbell page `d` reaches queue `i` (R133, R414, R418, R431). -/
def Mod.doorOpen (m : Mod) (d : Door) (i : Nat) : Bool :=
  m.powered && m.pcie.link && m.on F.BOOT_STAT_ready && !m.stopped &&
  match d with
  | .pf j => j.val == i
  | .vf v page =>
    m.pcie.vfEnable && decide (v.val < m.pcie.numVfs) &&
    match (List.range 64).find? fun c => m.on F.CTX_CFG_vf_bound c && m.get F.CTX_CFG_vf c == v.val && m.ctxState c != 0 with
    | some c => i == 16 * c + page.val
    | none => false

/-- Whether events of the links reach the module: it is powered and the boundary cells do not hold the balls (R446). -/
def Mod.linkOpen (m : Mod) : Bool := m.powered && !m.boot.jtag

/-- Whether the head record of queue `i` is `r`, of opcode `code`, and issues with the tensors `caps`: its waits hold, its
partitions run its context, and checks 5 to 9 pass (R142, R170), `chk` being those of its opcode. -/
def Mod.issues (m : Mod) (i code : Nat) (chk : Mod → W1024 → List Cap → Status) (r : W1024) (caps : List Cap) : Bool :=
  m.canIssue i == some r && Rc.opcode r == code
  && (match m.captureOp (qCtx i) (m.qMask i) r with | .ok l => l == caps | .error _ => false)
  && m.featOk (featNeed r caps) && chk m r caps == ST_OK && !m.sourceHeld r caps

/-- The module with record `r` marked as issued on queue `i`. -/
def Mod.begun (m : Mod) (i code : Nat) (r : W1024) (caps : List Cap) : Mod :=
  m.begin_ i { rcd := r, caps := caps, parts := if code < 0x50 then m.qMask i else 0 }

/-- The records that run on the arrays, vector units and movers in one pass, with opcode and checks (Table 6.2). -/
def runRecords (q : Fin 1024) (errs : List MemErr) : List (Instr × Nat × (Mod → W1024 → List Cap → Status)) :=
  [(.matmul q errs, 0x10, mmCheck), (.bmatmul q errs, 0x11, mmCheck), (.conv q errs, 0x12, cvCheck),
   (.attn q errs, 0x13, anCheck), (.eltwise q errs, 0x20, ewCheck), (.reduce q errs, 0x21, rdCheck),
   (.norm q errs, 0x22, nmCheck), (.softmax q errs, 0x23, smCheck),
   (.gather q errs, 0x31, fun m r caps => gsCheck m r caps 0 2), (.scatter q errs, 0x32, fun m r caps => gsCheck m r caps 2 0),
   (.transpose q errs, 0x33, tpCheck)]

/-- The collective records with their opcodes (Table 6.2). -/
def ringRecords (q : Fin 1024) (errs : List MemErr) : List (Instr × Nat) :=
  [(.allReduce q errs, 0x50), (.reduceScatter q errs, 0x51), (.allGather q errs, 0x52), (.allToAll q errs, 0x53),
   (.broadcast q errs, 0x54)]

/-- The commands that report a packet of one kind, with its packet type (R250). -/
def packetKinds (n : Fin 8) (p : Packet) : List (Instr × Nat) :=
  [(.discoveryReceive n p, 0x01), (.linkNoticeReceive n p, 0x02), (.routeBroadcastReceive n p, 0x03),
   (.collReadyReceive n p, 0x10), (.collDataReceive n p, 0x11), (.spanReceive n p, 0x12), (.gatherRowsReceive n p, 0x13),
   (.castDataReceive n p, 0x20), (.castDeltaReceive n p, 0x21), (.castRecReceive n p, 0x22), (.castDoneReceive n p, 0x23),
   (.castAckReceive n p, 0x24), (.castFetchReceive n p, 0x25), (.watchDataReceive n p, 0x30), (.watchAckReceive n p, 0x31)]

/-- What makes a command happen: the engines (also the sequencers and controllers that act by themselves), the power of the
module, or neither, where a command reaches the module also without its rails. -/
inductive Mover where
  | engines | power | always
deriving DecidableEq, Repr

/-- Which of them moves each command: a global stop holds the first (R414), and the first two need the rails (R418, R453). -/
def moverOf : Instr → Mover
  | .nop .. | .matmul .. | .bmatmul .. | .conv .. | .attn .. | .eltwise .. | .reduce .. | .norm .. | .softmax .. | .copy ..
  | .gather .. | .scatter .. | .transpose .. | .hostXfer .. | .prefetchList .. | .scatterReduce .. | .atomicCas ..
  | .allReduce .. | .reduceScatter .. | .allGather .. | .allToAll .. | .broadcast .. | .reduceUpdate .. | .stepBegin ..
  | .stepEnd .. | .vote .. | .flip .. | .interlude .. | .descWrite .. | .streamWrite .. | .groupWrite .. | .watchWrite ..
  | .opComplete .. | .fallback .. | .prefetchListDone .. | .collEngineStart .. | .teardownQuiesced .. | .teardownTimeout ..
  | .contextSwitch .. | .interludeBudgetExpiry .. | .hostCompletion .. | .hostRequestFailed .. | .patrolScrubRead ..
  | .sliceScrub .. | .nakReceive .. | .packetReceive .. | .linkNoticeReceive .. | .discoveryReceive .. | .joinWindowExpiry
  | .electionTimeout | .routeBroadcastReceive .. | .linkWatchdogExpiry .. | .collReadyReceive .. | .collDataReceive ..
  | .gatherRowsReceive .. | .spanReceive .. | .collTimeout .. | .updatePhaseDone .. | .verdictFixed ..
  | .closeTakesEffect .. | .restoreComplete .. | .castDataReceive .. | .castDeltaReceive .. | .castRecReceive ..
  | .castDoneReceive .. | .castAckReceive .. | .castFetchReceive .. | .castAbandonTimeout .. | .opTimeout ..
  | .shareStopTimeout .. | .queueStall .. | .deadlockScan | .ucodeParked .. | .ucodeParkTimeout .. | .counterWindowEnd
  | .traceIdleFlush .. | .watchDataReceive .. | .watchAckReceive .. | .watchAckTimeout .. | .partClockGate ..
  | .partPowerGate .. | .partWake .. | .idleFlitReceive .. => .engines
  | .dbTailWrite .. | .dbResumeSkip .. | .dbResumeRetry .. | .dbFlagValWrite .. | .dbFlagAddWrite .. | .flgValWrite ..
  | .flgAddWrite .. | .ctxEnable .. | .ctxTeardown .. | .regionWrite .. | .regionRead .. | .queueEnable ..
  | .queueDisable .. | .tdtCmd .. | .zoneCommit | .bar4Read .. | .bar4Write .. | .bar4Atomicop .. | .bar4Resize ..
  | .memorySideWake .. | .stackTempSample .. | .stackCooledReturn .. | .portEnable .. | .portDisable .. | .portRetrain ..
  | .portFence .. | .portUnfence .. | .peerDetected .. | .trainingComplete .. | .laneFail .. | .dataFlitReceive ..
  | .keepaliveSend .. | .keepaliveReceive .. | .keepaliveTimeout .. | .autoRetrain .. | .routeLoadStaging
  | .routeCommitLocal | .routeCommitBroadcast | .routeClearAuto | .genWr .. | .stepVeto .. | .stepAbandon ..
  | .stepClose .. | .stepClearHalt .. | .stepSet .. | .castLoad .. | .castUnload .. | .castRestore .. | .moduleReset ..
  | .partReset .. | .partResetComplete .. | .partEnable .. | .partDisable .. | .bar0NoResponse .. | .armatureWatchdogExpiry
  | .dumpTrigger | .dumpDiscard | .dumpCaptureDone .. | .ucodeLoad .. | .trcMark .. | .trcFlush .. | .stopArm | .stopCancel
  | .stopRelease | .globalStopTake | .globalStopResume | .bringupReady .. | .bootVolatileUpdate .. | .bootWriteFirmware
  | .bootWriteConfig | .bootEraseLog | .bootRecoveryRun | .bootRecoveryConfig | .bootCopyFlash .. | .secProvisionOwner
  | .secReplaceOwner | .secWriteChain | .secDebugUnlock | .secDebugRelock | .secRaiseMinSvn | .pcieLinkDown | .flrVf ..
  | .flrPf0 | .msixUnmask .. | .powerSample .. | .pwrMsTarget .. | .msTransitionDone | .pcieLinkUp .. | .vfEnable ..
  | .stackParityError .. | .stackPhyLinkLoss .. | .calibrationRecordWrite => .power
  | .powerOn | .flowConfirmed | .presenceAssert | .presenceRelease | .presenceExpiry | .sealCheck .. | .perstAssert
  | .perstDeassert | .jtagBoundarySelect | .pldmSensorRead | .getVersion .. | .getCapabilities .. | .negotiateAlgorithms ..
  | .getDigests .. | .getCertificate .. | .challenge .. | .getMeasurements .. | .spdmUnsupportedRequest ..
  | .vendorReadFaultLog .. | .vendorReadEventLog .. | .vendorReadDump .. | .vendorReadStatus | .inputOvervoltage
  | .brownout | .brownoutReturn | .dieTempSample .. | .coolantSample .. | .refClockLoss | .registerWrite ..
  | .alwaysOnPowerLoss | .doeDiscovery .. | .mctpEndpointIdAssign .. => .always

/-- Nothing waits: no packet of the module to itself, and a round of what could go on by itself changes nothing. -/
def Mod.quiet (m : Mod) : Prop := m.fab.loop = [] ∧ m.round = m

/-- The output pins agree with the state of the module (Table 15.12). -/
def State.pinsAgree (s : State) : Prop := s.pins = s.mod.pins

/-- A combination of the output pins that Table 15.12 allows: `PWR_OK` is low with a thermal trip and high with an alert, and
while it is low every port's transmitters are idle or without power, its receivers have no termination, and the PCIe lanes are in
high impedance. -/
def Pins.legal (p : Pins) : Prop :=
  p.vufen.length = 8 ∧ p.vufenRx.length = 8 ∧ (p.thermtripLow = true → p.pwrOkLow = true) ∧
  (p.alertLow = true → p.pwrOkLow = false) ∧
  (p.pwrOkLow = true → p.pcie = false ∧ (∀ x ∈ p.vufen, x = .idle ∨ x = .highImpedance) ∧
    ∀ x ∈ p.vufenRx, x ≠ .terminated)

/-- The outcome of `n` steps. -/
def steps : Nat → State → Host.Outcome State Fault Refusal
  | 0, s => .next s
  | n + 1, s => match step s with
    | .next t => steps n t
    | o => o

/-- The state after command `c`, where it answers a next state. -/
def executed (s : State) (c : Instr) : State := match exec c s with | .next t => t | _ => s

/-- Memory in its canonical form: addresses strictly rising, no entry equal to what an unlisted address reads as. -/
def Mod.memWf (m : Mod) : Bool := Tab.wf 0 m.mem

/-- Registers that an access of slice `p` changes: the gate of its memory side, its waste count, and its events among `CNT_MOD`
(R203, R205, R398). -/
def sliceReg (p reg : Nat) : Bool :=
  reg == F.MEM_STACK_STAT_gated.base + F.MEM_STACK_STAT_gated.stride * p
  || reg == F.MEM_WASTE_bytes.base + F.MEM_WASTE_bytes.stride * p
  || (List.range 8).any fun k => reg == F.CNT_MOD_count.base + F.CNT_MOD_count.stride * (128 + 8 * p + k)

/-- The byte of memory that stack-local address `key` names (stack * 2^36 + address). -/
def Mod.byteAt (m : Mod) (key : Nat) : Byte := Tab.get 0 m.mem key

end Sys2Proof.Machine
end

