-- ==== Sys2Proof/Certificates/Slice0/Obligations.lean ====
section
/-! DEFINITION. The statements for the provers, each with the rules of spec/ that it formalises or rests on. A statement of what a
command does reads `exec c s = .next (s.leave m')`: `m'` is the module after the command's own effect and, where the command
is one after which the module goes on by itself, `m'` ends in `settle` (log entry 13); `SettleOfQuiet` says when that is
nothing. Everything that `m'` does not name is as it was. -/

open Sys2Proof Sys2Proof.Machine

/-! ### The block -/

/-- A step takes the command at the front of the queue and executes it on the state with the rest of the queue. -/
def Obligations.StepTakesFront : Prop :=
  ∀ (s : State) (c : Instr) (rest : List Instr), s.pending = c :: rest → step s = exec c { s with pending := rest }

/-- With no command waiting a step advances the time base by one nanosecond while the module is powered or waits for coolant
flow, and otherwise changes nothing (the model's choice, log entry 1). -/
def Obligations.IdleStep : Prop :=
  ∀ s : State, s.pending = [] →
    ((s.mod.pwr.rails = .on ∨ s.mod.pwr.rails = .waitFlow) →
      step s = .next { s with mod := { s.mod with time := (s.mod.time + 1) % 2 ^ 64 } }) ∧
    (s.mod.pwr.rails ≠ .on → s.mod.pwr.rails ≠ .waitFlow → step s = .next s)

/-- Every command answers a next state, leaves the waiting commands alone, and leaves the pins as Table 15.12 has them for
the module it leaves: no command ends in a fault or a refusal. -/
def Obligations.EveryCommandAnswers : Prop :=
  ∀ (c : Instr) (s : State), ∃ t : State, exec c s = .next t ∧ t.pending = s.pending ∧ t.pinsAgree

/-- Every step keeps the output pins in agreement with the state of the module, and pins that agree are a combination Table 15.12
allows: a thermal trip drives `PWR_OK` low, an alert is driven only while it is high, and while it is low no port sends, no
receiver is terminated and the PCIe lanes are in high impedance (R433, R468). -/
def Obligations.PinsInvariant : Prop :=
  ∀ s t : State, s.pinsAgree → step s = .next t → t.pinsAgree ∧ t.pins.legal

/-- While the rails are down no command changes the module but those of the supply, the sidebands and the pins, and while a global
stop holds the engines no event of an engine or a sequencer does (R414, R418, R453). -/
def Obligations.StandingEngines : Prop :=
  ∀ (c : Instr) (s : State),
    (moverOf c = .engines → s.mod.works = false → exec c s = .next (s.leave s.mod)) ∧
    (moverOf c = .power → s.mod.powered = false → exec c s = .next (s.leave s.mod))

/-- The queue is first in, first out and drains: as many steps as commands wait execute each of them once, in their order, and
leave none waiting (the queue is the model's form of a block, log entry 1). -/
def Obligations.QueueDrains : Prop :=
  ∀ s : State, steps s.pending.length s = .next (s.pending.foldl executed { s with pending := [] })

/-- The pins agree at reset: `PWR_OK` is low, nothing else is driven, the PCIe lanes are in high impedance and no port's receiver is
terminated (R468, Table 15.12). -/
def Obligations.PinsAgreeAtReset : Prop :=
  State.reset.pinsAgree ∧ State.reset.pins.pwrOkLow = true ∧ State.reset.pins.alertLow = false
    ∧ State.reset.pins.thermtripLow = false ∧ State.reset.pins.pcie = false
    ∧ (∀ x ∈ State.reset.pins.vufenRx, x = .unterminated) ∧ State.reset.pins.legal

/-- What a whole-module reset leaves (R7, R151, R238, R312, R389): the time base and every flag at 0, every context
`DISABLED` with no committed step and its controller `IDLE`, every port `DISABLED`, memory listing nothing, no command
waiting. -/
def Obligations.ResetLeaves : Prop :=
  State.reset.pending = [] ∧ State.reset.mod.time = 0 ∧ State.reset.mod.mem = [] ∧ State.reset.mod.memWf = true ∧
  (∀ f, State.reset.mod.flag f = 0 ∧ State.reset.mod.flagBad f = false) ∧
  (∀ c, State.reset.mod.ctxState c = 0 ∧ State.reset.mod.get F.STEP_STAT_state c = 0 ∧
    State.reset.mod.get F.STEP_COMMITTED_step c = 0 ∧ State.reset.mod.get F.STEP_LOSS_CNT_n c = 0) ∧
  (∀ n, State.reset.mod.get F.LNK_STAT_state n = 0) ∧ (∀ i, State.reset.mod.queueState i = (0, 0))

/-- Where nothing waits, nothing follows a command (log entry 13). -/
def Obligations.SettleOfQuiet : Prop := ∀ m : Mod, m.quiet → m.settle = m

/-! ### Numbers, tables and memory -/

/-- Multi-byte fields are little-endian (R4): byte k holds bits [8k+7:8k], and reading the bytes gives the number back. -/
def Obligations.LittleEndian : Prop :=
  ∀ n x : Nat, (leBytes n x).length = n ∧ leNat (leBytes n x) = x % 256 ^ n ∧
    ∀ k, k < n → (leBytes n x)[k]? = some (BitVec.ofNat 8 (x / 256 ^ k))

/-- Storing bytes keeps memory in its canonical form, and a byte reads as the last one stored to its place, or as before
(R197, R208). -/
def Obligations.MemoryStores : Prop :=
  ∀ (m : Mod) (pa : Nat) (l : List Byte) (fine : Bool), (m.memWf = true → (m.wr pa l fine).memWf = true) ∧
    (∀ k : Nat, (∀ j, j < l.length → m.key (pa + j) ≠ k) → (m.wr pa l fine).byteAt k = m.byteAt k) ∧
    (∀ j, j < l.length → (∀ i, j < i → i < l.length → m.key (pa + i) ≠ m.key (pa + j)) →
      (m.wr pa l fine).rdByte (pa + j) = l.getD j 0)

/-- In the map of reset, every zone interleaved over the 16 stacks, two physical addresses name different bytes of HBM
(R197, R199). -/
def Obligations.AddressesApart : Prop :=
  ∀ (m : Mod) (a b : Nat), m.zones = [] → a < 2 ^ 40 → b < 2 ^ 40 → m.key a = m.key b → a = b

/-- A write that covers a whole word clears its poison, and one that does not leaves it as it was (R221). -/
def Obligations.WholeWritesClearPoison : Prop :=
  ∀ (m : Mod) (pa : Nat) (l : List Byte) (fine : Bool) (w : Nat),
    ((∀ a, pa ≤ a → a + 8 ≤ pa + l.length → a % 8 = 0 → m.key a / 8 ≠ w) →
      (m.wr pa l fine).wordPoisoned w = m.wordPoisoned w) ∧
    (∀ a, pa ≤ a → a + 8 ≤ pa + l.length → a % 8 = 0 → (m.wr pa l fine).wordPoisoned (m.key a / 8) = false)

/-- A ring in memory is full when `head` + 1, modulo its size, equals `tail`; a record that finds it full is dropped and
counted in `lost`, and the others go to `base` + size × `head` (R128). -/
def Obligations.RingWrites : Prop :=
  ∀ (m : Mod) (base n i : Nat) (l : List Byte),
    ((m.get F.MQ_LOG_PTR_head i + 1) % n = m.get F.MQ_LOG_PTR_tail i % n →
      m.ringWrite base n 32 F.MQ_LOG_PTR_head F.MQ_LOG_PTR_tail F.MQ_LOG_PTR_lost i l
        = m.set F.MQ_LOG_PTR_lost i (satAdd 24 (m.get F.MQ_LOG_PTR_lost i) 1)) ∧
    ((m.get F.MQ_LOG_PTR_head i + 1) % n ≠ m.get F.MQ_LOG_PTR_tail i % n →
      m.ringWrite base n 32 F.MQ_LOG_PTR_head F.MQ_LOG_PTR_tail F.MQ_LOG_PTR_lost i l
        = (m.wrInt (base + 32 * m.get F.MQ_LOG_PTR_head i) l).set F.MQ_LOG_PTR_head i
            ((m.get F.MQ_LOG_PTR_head i + 1) % n))

/-! ### Records -/

/-- A record of the arrays, vector units, gather, scatter or transpose that issues runs: the uncorrectable SRAM errors it meets are
handled, its operation is marked issued with the tensors it captured, the memory errors its reads meet are handled, and its
operands are read once; the run's bytes, publications, status, statistics and events, or the plan of its fallback, are set for its
end (R101, R104, R112-R115, R142, R174-R185, R219, R220, R362).
A matrix or vector record in an abandoned step does no work: free values stand for its outputs, and it completes and signals
(R320). -/
def Obligations.RecordsRun : Prop :=
  (∀ (s : State) (q : Fin 1024) (errs : List MemErr) (r : W1024) (caps : List Cap)
     (e : Instr × Nat × (Mod → W1024 → List Cap → Status)),
     e ∈ runRecords q errs → s.mod.works = true → (s.mod.sramErrors errs).issues q e.2.1 e.2.2 r caps = true →
     (isCompute e.2.1 && ((s.mod.sramErrors errs).begun q e.2.1 r caps).skipped (qCtx q)) = false →
     (((s.mod.sramErrors errs).begun q e.2.1 r caps).meetErrors (some q) 0 errs).running q = true →
     let m := (((s.mod.sramErrors errs).begun q e.2.1 r caps).meetErrors (some q) 0 errs).readOps r caps
     exec e.1 s = .next (s.leave (m.runFirst q (m.runOf r caps []).1 (strictIdx r) (m.runOf r caps []).2).settle)) ∧
  (∀ (s : State) (q : Fin 1024) (errs : List MemErr) (r : W1024) (caps : List Cap)
     (e : Instr × Nat × (Mod → W1024 → List Cap → Status)),
     e ∈ runRecords q errs → isCompute e.2.1 = true → s.mod.works = true →
     (s.mod.sramErrors errs).issues q e.2.1 e.2.2 r caps = true →
     ((s.mod.sramErrors errs).begun q e.2.1 r caps).skipped (qCtx q) = true →
     let m := (s.mod.sramErrors errs).begun q e.2.1 r caps
     exec e.1 s = .next (s.leave
       ((m.drawBytes (opOutAddrs r caps).length).2.modOp q fun o =>
         { o with writes := (opOutAddrs r caps).zip (m.drawBytes (opOutAddrs r caps).length).1 }).settle))

/-- A `NOP` issues and has nothing to do but to complete (R171).
`COPY`, `HOST_XFER`, `SCATTER_REDUCE` and `ATOMIC_CAS` issue and start; a `PREFETCH_LIST` starts its list and waits for
its end (R165, R166, R184, R186, R187). -/
def Obligations.RecordsStart : Prop :=
  (∀ (s : State) (q : Fin 1024) (r : W1024) (caps : List Cap), s.mod.works = true →
     s.mod.issues q 0x00 (fun _ _ _ => ST_OK) r caps = true →
     exec (.nop q) s = .next (s.leave (s.mod.begun q 0x00 r caps).settle)) ∧
  (∀ (s : State) (q : Fin 1024) (errs : List MemErr) (r : W1024) (caps : List Cap), s.mod.works = true →
     let b (code : Nat) : Mod := (s.mod.sramErrors errs).begun q code r caps
     ((s.mod.sramErrors errs).issues q 0x30 cpCheck r caps = true → ((b 0x30).meetErrors (some q) 0 errs).running q = true →
       exec (.copy q errs) s = .next (s.leave (((b 0x30).meetErrors (some q) 0 errs).cpStart q r caps).settle)) ∧
     ((s.mod.sramErrors errs).issues q 0x34 (fun m r _ => m.hxCheck (qCtx q) r) r caps = true →
       ((b 0x34).meetErrors (some q) 0 errs).running q = true →
       exec (.hostXfer q errs) s = .next (s.leave (((b 0x34).meetErrors (some q) 0 errs).hxStart q r).settle)) ∧
     ((s.mod.sramErrors errs).issues q 0x40 srCheck r caps = true → ((b 0x40).meetErrors (some q) 2 errs).running q = true →
       exec (.scatterReduce q errs) s = .next (s.leave (((b 0x40).meetErrors (some q) 2 errs).srStart q r caps).settle)) ∧
     ((s.mod.sramErrors errs).issues q 0x41 caCheck r caps = true → ((b 0x41).meetErrors (some q) 2 errs).running q = true →
       exec (.atomicCas q errs) s = .next (s.leave (((b 0x41).meetErrors (some q) 2 errs).caStart q caps).settle)) ∧
     (s.mod.issues q 0x35 (fun m r _ => if Rc.pf r 0 0 16 < m.get F.CTX_PF_CFG_pf_count (qCtx q) then ST_OK else ST_BAD_SHAPE)
         r caps = true →
       let c := qCtx q
       let m := (s.mod.begun q 0x35 r caps).pfStart c (Rc.pf r 0 0 16) q
       let going := (m.ctx c).pfRun.any (·.layer == Rc.pf r 0 0 16)
       let bad := match (m.ctx c).pfBad.find? (·.1 == Rc.pf r 0 0 16) with | some b => b.2 | none => ST_OK
       exec (.prefetchList q) s = .next (s.leave
         (m.modOp q fun o => { o with ready := !going, status := if going then ST_OK else bad }).settle)))

/-- A collective record issues and waits for an engine of its axis, last in the list of the link die (R273); `REDUCE_UPDATE` as
well, once the step has noted the tensors it names (R287, R309). -/
def Obligations.CollectiveRecordsWait : Prop :=
  ∀ (s : State) (q : Fin 1024) (errs : List MemErr) (r : W1024) (caps : List Cap), s.mod.works = true →
    let waits (m : Mod) : Mod :=
      let x := m.ctx (qCtx q)
      let m' := m.setCtx (qCtx q) { x with deadTags := x.deadTags.filter (· != CoRec.tag r) }
      (m'.modOp q fun o => { o with coll := some {}, ready := false }).setCollWait (CoRec.axis r / 2)
        (m'.collWait (CoRec.axis r / 2) ++ [q.val])
    (∀ e : Instr × Nat, e ∈ ringRecords q errs → (s.mod.sramErrors errs).issues q e.2 coCheck r caps = true →
      let m := ((s.mod.sramErrors errs).begun q e.2 r caps).meetErrors (some q) 0 errs
      m.running q = true → exec e.1 s = .next (s.leave (waits m).settle)) ∧
    ((s.mod.sramErrors errs).issues q 0x55 (ruCheck (qCtx q)) r caps = true →
      let m := (s.mod.sramErrors errs).begun q 0x55 r caps
      let c := qCtx q
      let named := (caps.filter fun y => decide (1 ≤ y.slot) && decide (y.slot ≤ 4)).map (m.capIdx c)
      let prot := (caps.filter fun y => decide (1 ≤ y.slot) && Ds.ab y.desc).map (m.capIdx c)
      let m1 := (m.setCtx c { m.ctx c with named := (m.ctx c).named ++ named,
                                           prot := prot.foldl (fun l j => insertNew j l) (m.ctx c).prot }).meetErrors (some q) 0 errs
      m1.running q = true → exec (.reduceUpdate q errs) s = .next (s.leave (waits m1).settle))

/-- `STEP_BEGIN` opens the step it names, with the token of its tensor if it has one (free where that is poisoned), `STEP_END`
ends it, `VOTE` waits in the state `VOTING` for the verdict, and `FLIP` of a step that passed waits for what it must, of another
closes it as failed (R190, R296, R311, R313, R318, R322). -/
def Obligations.StepRecordsRun : Prop :=
  ∀ (s : State) (q : Fin 1024) (r : W1024) (caps : List Cap), s.mod.works = true →
    (s.mod.issues q 0x60 (sbCheck q) r caps = true → capOf caps 0 = none →
      exec (.stepBegin q) s = .next (s.leave
        ((s.mod.begun q 0x60 r caps).stepOpenNow (qCtx q) (Rc.p r 0) (Rc.pf r 1 0 16) (BitVec.ofNat 256 (leNat []))).settle)) ∧
    (∀ x, s.mod.issues q 0x60 (sbCheck q) r caps = true → capOf caps 0 = some x →
      let m := (s.mod.begun q 0x60 r caps).readCap x
      (m.poisonedCap x = false →
        exec (.stepBegin q) s = .next (s.leave
          (m.stepOpenNow (qCtx q) (Rc.p r 0) (Rc.pf r 1 0 16) (BitVec.ofNat 256 (leNat (m.rd x.base 32)))).settle)) ∧
      (m.poisonedCap x = true →
        exec (.stepBegin q) s = .next (s.leave
          (((m.drawBytes 32).2.stepOpenNow (qCtx q) (Rc.p r 0) (Rc.pf r 1 0 16)
            (BitVec.ofNat 256 (leNat (m.drawBytes 32).1))).opPoison q).settle))) ∧
    (s.mod.issues q 0x61 (seCheck q) r caps = true →
      exec (.stepEnd q) s = .next (s.leave
        ((((((s.mod.begun q 0x61 r caps).set F.STEP_STAT_state (qCtx q) 2).stepTrace (qCtx q) 1).lossOf q caps).boundary
          (qCtx q)).updBegin (qCtx q)).settle)) ∧
    (s.mod.issues q 0x62 (voCheck q) r caps = true →
      let m := ((s.mod.begun q 0x62 r caps).modOp q fun o => { o with ready := false }).set F.STEP_STAT_state (qCtx q) 3
      exec (.vote q) s = .next (s.leave
        ((m.setCtx (qCtx q) { ((s.mod.begun q 0x62 r caps).modOp q fun o => { o with ready := false }).ctx (qCtx q) with
          voteQ := some q.val }).voteGo (qCtx q)).settle)) ∧
    (s.mod.issues q 0x63 (flCheck q) r caps = true → (s.mod.begun q 0x63 r caps).get F.STEP_STAT_outcome (qCtx q) = 1 →
      let m := (s.mod.begun q 0x63 r caps).modOp q fun o => { o with ready := false }
      exec (.flip q) s = .next (s.leave
        ((m.setCtx (qCtx q) { m.ctx (qCtx q) with flipQ := some q.val }).flipTry (qCtx q)).settle)) ∧
    (s.mod.issues q 0x63 (flCheck q) r caps = true → (s.mod.begun q 0x63 r caps).get F.STEP_STAT_outcome (qCtx q) ≠ 1 →
      exec (.flip q) s = .next (s.leave
        (((s.mod.begun q 0x63 r caps).stepFailed (qCtx q) 0).flipDone (qCtx q) q false).settle))

/-- `DESC_WRITE` and `WATCH_WRITE` store entries from memory one after another; `GROUP_WRITE` and `STREAM_WRITE` issue and store
their entry when they complete (`OperationsGoOn`); `INTERLUDE` asks for the partitions and waits for the operations then in flight
(R161, R162, R193-R195, R302). -/
def Obligations.TableRecordsRun : Prop :=
  ∀ (s : State) (q : Fin 1024) (r : W1024) (caps : List Cap), s.mod.works = true →
    (s.mod.issues q 0x70 (dwCheck q) r caps = true →
      let m := s.mod.begun q 0x70 r caps
      let g := m.region (qCtx q) (MtRec.region r)
      exec (.descWrite q) s = .next (s.leave
        (m.dwGo (Rgn.fine g) q (qCtx q) (Rgn.base g + MtRec.off r) (MtRec.dwFirst r) (MtRec.dwCount r)).settle)) ∧
    (s.mod.issues q 0x73 (wwCheck q) r caps = true →
      let m := s.mod.begun q 0x73 r caps
      let g := m.region (qCtx q) (MtRec.region r)
      exec (.watchWrite q) s = .next (s.leave
        (m.wwGo (Rgn.fine g) q (qCtx q) (Rgn.base g + MtRec.off r) (MtRec.wwFirst r) (MtRec.wwCount r)).settle)) ∧
    (s.mod.issues q 0x72 (gwCheck q) r caps = true →
      exec (.groupWrite q) s = .next (s.leave (s.mod.begun q 0x72 r caps).settle)) ∧
    (s.mod.issues q 0x71 (swCheck q) r caps = true →
      exec (.streamWrite q) s = .next (s.leave (s.mod.begun q 0x71 r caps).settle)) ∧
    (s.mod.issues q 0x64 (ilCheck q) r caps = true →
      let m := (s.mod.begun q 0x64 r caps).modOp q fun o => { o with ready := false }
      let e := IlRec.ctx r
      let il : Interlude :=
        { train := qCtx q, queue := q, parts := m.qMask q &&& m.get F.CTX_CFG_part_mask e, flag := m.ctxFlag e (IlRec.flag r),
          target := IlRec.target r, budget := IlRec.budget r, before := m.flying (qCtx q) q }
      exec (.interlude q) s = .next (s.leave
        ((m.setCtx e { m.ctx e with iludes := (m.ctx e).iludes ++ [il] }).ilSettle e).settle))

/-- The end of an operation (R107, R142, R145, R150, R169): one that is ready, whose first run calls for no fallback, completes,
what it gathered merged and the entry of a `GROUP_WRITE` or `STREAM_WRITE` stored (R190, R194, R302); one whose fallback is due runs
again with the formats and scales chosen for it (R115); a prefetch list whose items wait for nothing more goes on (R166); a free
collective engine takes the first operation that waits on its link die (R273). -/
def Obligations.OperationsGoOn : Prop :=
  ∀ (s : State), s.mod.works = true →
    (∀ (q : Fin 1024) (o o' : Op), (s.mod.queue q).op = some o → o.ready = true → o.fallback = [] → o.hostPhase = 0 →
      let m := s.mod.mergeRun q
      (m.queue q).op = some o' → o'.fallback = [] →
      let c := qCtx q
      let r := o'.rcd
      let stored : Mod :=
        if Rc.opcode r = 0x64 then m.interludeClear q
        else if Rc.opcode r = 0x72 then
          let k := GwRec.group r
          let m1 := { m with groupsPend := Tab.set 0 m.groupsPend k (gwEntry c r (Tab.get 0 m.groupsPend k)) }
          m1.setCtx c { m1.ctx c with wroteGroups := insertNew k (m1.ctx c).wroteGroups }
        else if Rc.opcode r = 0x71 then
          let k := SwRec.entry r
          let w : W256 := BitVec.ofNat 256 (SwRec.seed r + SwRec.id r * 2 ^ 128 + b2n (SwRec.valid r) * 2 ^ 160
            + (if SwRec.valid r then c else St.owner (Tab.get 0 m.streams k)) * 2 ^ 162)
          let m1 := ({ m with streams := Tab.set 0 m.streams k w }).markShared
          let m2 := m1.setCtx c { m1.ctx c with wroteStreams := insertNew k (m1.ctx c).wroteStreams }
          if (SwRec.valid r && m2.streamHeld k (SwRec.seed r) (SwRec.id r) (· != c)) = true then
            m2.log { st := ST_STREAM_SHARED, cls := .event, block := Blk.UPD, ctx := c, queue := q, d0 := k }
          else m2
        else m
      exec (.opComplete q) s = .next (s.leave (stored.complete q).settle)) ∧
    (∀ (q : Fin 1024) (o : Op) (errs : List MemErr), ((s.mod.sramErrors errs).queue q).op = some o → o.fallback ≠ [] →
      o.run ≠ .first → Rc.opcode o.rcd ≠ 0x30 → ((s.mod.sramErrors errs).meetErrors (some q) 0 errs).running q = true →
      let m := ((s.mod.sramErrors errs).meetErrors (some q) 0 errs).readOps o.rcd o.caps
      exec (.fallback q errs) s = .next (s.leave
        (m.runAgain q o (m.runOf o.rcd o.caps o.fallback).1 (m.runOf o.rcd o.caps o.fallback).2).settle)) ∧
    (∀ (c : Fin 64) (layer : BitVec 16), (∀ x ∈ s.mod.pcie.reqs, x.list ≠ some (c.val, layer.toNat)) →
      exec (.prefetchListDone c layer) s = .next (s.leave (s.mod.pfAdvance c layer.toNat).settle)) ∧
    (∀ (e : Fin 8) (i : Nat) (rest : List Nat) (o o' : Op), s.mod.collWait (e.val / 4) = i :: rest →
      s.mod.on F.COL_STAT_busy e = false → (s.mod.queue i).op = some o →
      let m := (s.mod.setCollWait (e.val / 4) rest).engineTake i e o.rcd
      (m.queue i).op = some o' →
      let m' := (if Rc.opcode o'.rcd = 0x55 then m.updRing i o' else m.collRing i o').ringStep (.q i) 8
      exec (.collEngineStart e) s = .next (s.leave (m'.replayColl m'.early.length).settle))

/-! ### Doorbells, flags, contexts, regions, queues, descriptors -/

/-- A tail value within the queue's size and not behind the last one is accepted: its new records are registered and the head
looked at (R140, R376).
Any other tail value halts the queue with `ST_BAD_DOORBELL`; a tail of a queue that is not enabled is ignored and recorded (R140).
A halted queue whose operation has ended skips its record or tries it again (R145). -/
def Obligations.DoorbellCommands : Prop :=
  (∀ (s : State) (d : Door) (i : Nat) (v : W32), s.mod.doorOpen d i = true →
     let m := s.mod.cnt 622 1
     m.qOn i = true → (v - (m.queue i).head).toNat ≤ m.qSize i → (m.queue i).waiting ≤ (v - (m.queue i).head).toNat →
     let q := m.queue i
     let m1 := m.setQueue i { q with tail := v }
     let new := (List.range (v - q.tail).toNat).map fun j => (q.tail + BitVec.ofNat 32 j).toNat
     exec (.dbTailWrite d v) s = .next (s.leave ((m1.each new fun m n => m.registerRec i n).headArrive i).settle)) ∧
  (∀ (s : State) (d : Door) (i : Nat) (v : W32), s.mod.doorOpen d i = true →
     let m := s.mod.cnt 622 1
     m.qOn i = true → (m.qSize i < (v - (m.queue i).head).toNat ∨ (v - (m.queue i).head).toNat < (m.queue i).waiting) →
     exec (.dbTailWrite d v) s = .next (s.leave (m.halt i ST_BAD_DOORBELL).settle)) ∧
  (∀ (s : State) (d : Door) (i : Nat) (v : W32), s.mod.doorOpen d i = true → (s.mod.cnt 622 1).qOn i = false →
     exec (.dbTailWrite d v) s = .next (s.leave ((s.mod.cnt 622 1).refuseQueue ST_CTX_STATE Blk.Q i).settle)) ∧
  (∀ (s : State) (d : Door) (i : Nat) (st : Status), s.mod.doorOpen d i = true → (s.mod.queue i).halted = some st →
     s.mod.qOn i = true → (s.mod.queue i).op = none →
     let m := s.mod.setQueue i { s.mod.queue i with halted := none, stalled := false }
     (st ≠ ST_BAD_DOORBELL → (s.mod.queue i).waiting ≠ 0 →
       exec (.dbResumeSkip d) s = .next (s.leave (m.headPass i).settle)) ∧
     exec (.dbResumeRetry d) s
       = .next (s.leave ((m.setQueue i { m.queue i with fetched := [], checked := false, blocked := none }).headArrive i).settle))

/-- A flag is set to the written value or grows by it modulo 2^64, and a wrap is recorded; a set clears poison (R148, R362).
What waits on the flag follows (R162).
PF0 sets and adds to any module flag; a doorbell page sets and adds to the selected flag of its queue's context, inside
the context's range (R147, R148). -/
def Obligations.FlagWrites : Prop :=
  (∀ (m : Mod) (f : Nat) (v : W64),
     m.flagSet f v = ({ m with flags := Tab.set 0 m.flags f v,
                               flagPois := Tab.set false m.flagPois f false }).interludeEnd f ∧
     (m.flagAdd f v = (if m.flag f + v < v then
         ({ m with flags := Tab.set 0 m.flags f (m.flag f + v) }).log
           { st := ST_FLAG_WRAP, cls := .event, block := Blk.FLG, d0 := f, d1 := (m.flag f + v).toNat }
       else { m with flags := Tab.set 0 m.flags f (m.flag f + v) }).interludeEnd f)) ∧
  (∀ (s : State) (v : W64),
     (∀ f : Fin 65536, s.mod.hostOpen Blk.FLG = true →
       exec (.flgValWrite f v) s = .next (s.leave (s.mod.flagSet f v).settle) ∧
       exec (.flgAddWrite f v) s = .next (s.leave (s.mod.flagAdd f v).settle)) ∧
     (∀ (d : Door) (i : Nat), s.mod.doorOpen d i = true →
       (s.mod.flagIn (qCtx i) (s.mod.queue i).flagSel.toNat = true →
         exec (.dbFlagValWrite d v) s
           = .next (s.leave (s.mod.flagSet (s.mod.ctxFlag (qCtx i) (s.mod.queue i).flagSel.toNat) v).settle) ∧
         exec (.dbFlagAddWrite d v) s
           = .next (s.leave (s.mod.flagAdd (s.mod.ctxFlag (qCtx i) (s.mod.queue i).flagSel.toNat) v).settle)) ∧
       (s.mod.flagIn (qCtx i) (s.mod.queue i).flagSel.toNat = false →
         exec (.dbFlagValWrite d v) s = .next (s.leave (s.mod.refuseQueue ST_BAD_FLAG Blk.FLG i).settle))))

/-- The frame of a flag write after which nothing waits: every other flag, every register, all of memory, every queue, partition and
port are as they were, and so is every context but for its interlude, which the flag may end (R148, R162). -/
def Obligations.FlagWriteFrame : Prop :=
  ∀ (s t : State) (f : Fin 65536) (v : W64), s.mod.hostOpen Blk.FLG = true → (s.mod.flagSet f v).quiet →
    exec (.flgValWrite f v) s = .next t →
    t.mod.regs = s.mod.regs ∧ t.mod.mem = s.mod.mem ∧ t.mod.poison = s.mod.poison ∧ t.mod.queues = s.mod.queues
      ∧ t.mod.parts = s.mod.parts ∧ t.mod.ports = s.mod.ports ∧ t.mod.tdt = s.mod.tdt ∧ t.mod.regions = s.mod.regions
      ∧ t.mod.time = s.mod.time ∧ t.mod.out = s.mod.out ∧ t.pending = s.pending
      ∧ (∀ c : Nat, t.mod.ctx c = { s.mod.ctx c with iludes := (t.mod.ctx c).iludes })
      ∧ ∀ g : Nat, (t.mod.flag g = if g = f.val then v else s.mod.flag g)
        ∧ (t.mod.flagBad g = if g = f.val then false else s.mod.flagBad g)

/-- CTX_ENABLE of a `DISABLED` context that passes every check makes it `ACTIVE`, counts its generation, and starts its step
controller `IDLE` with no committed step and no loss counted (R131, R267, R312). -/
def Obligations.ContextEnables : Prop :=
  ∀ (s : State) (c : Fin 64), s.mod.hostOpen Blk.CTX = true → s.mod.ctxState c = 0 →
    (s.mod.ctxCheck c = ST_OK →
      let m := s.mod.setCtx c { iludes := (s.mod.ctx c).iludes, kNow := (s.mod.ctx c).kNow }
      let m := (m.set F.CTX_STAT_state c 1).count F.CTX_STAT_gen c 1
      let m := (m.setRegAt (R.STEP_STAT.base + R.STEP_STAT.stride * c) R.STEP_STAT.reset R.STEP_STAT.reset).set
        F.STEP_COMMITTED_step c 0
      exec (.ctxEnable c) s = .next (s.leave ((m.set F.STEP_LOSS_CNT_n c 0).ctxHeads c).settle)) ∧
    (s.mod.ctxCheck c ≠ ST_OK →
      exec (.ctxEnable c) s = .next (s.leave (s.mod.set F.CTX_STAT_last_status c (s.mod.ctxCheck c)).settle))

/-- Teardown (R382-R384, Table 12.11): an `ACTIVE` context drains, its operations stopped, its casts and restore ended, its lists
and reductions dropped, its packets and interludes ended; once all have acknowledged, or after the timeout with its record and the
resets of the silent partitions, it is `DISABLED`. -/
def Obligations.ContextTeardown : Prop :=
  ∀ (s : State) (c : Fin 64),
    (s.mod.hostOpen Blk.CTX = true → s.mod.ctxState c = 1 →
      let m := (s.mod.set F.CTX_STAT_state c 2).each (ctxQueues c) fun m i => (m.stopOp i).queuePending i
      let m := (m.genAbandon c ST_CAST_ABANDONED).restoreEnd c ST_CAST_ABANDONED
      let m := m.setCtx c { m.ctx c with
        pfRun := [], castLoaded := false, castList := [], vote := none, normRed := none, castRed := none }
      let m := { m with pcie := { m.pcie with
        reqs := m.pcie.reqs.filter fun q => !(match q.list with | some l => l.1 == c.val | none => false) } }
      exec (.ctxTeardown c) s
        = .next (s.leave (((m.set F.CAST_STAT_state c 0).egressDrop c).ilTeardown c).settle)) ∧
    (s.mod.works = true → s.mod.ctxState c = 2 →
      exec (.teardownQuiesced c) s = .next (s.leave (s.mod.ctxOff c).settle)) ∧
    (∀ silent : BitVec 16, s.mod.works = true → s.mod.ctxState c = 2 →
      let m := s.mod.log { st := ST_TEARDOWN_TIMEOUT, cls := .contained, block := Blk.CTX, ctx := c }
      let ps := (bitList 16 silent.toNat).filter fun p => m.get F.PART_STAT_state p == 2
      exec (.teardownTimeout c silent) s
        = .next (s.leave (((m.each ps fun m p => m.faultReset p ST_TEARDOWN_TIMEOUT).ctxOff c)).settle))

/-- While a context is `DISABLED` a write of `gen_wr` sets its generation; in any other state it is ignored and recorded; the
enable then counts it by 1 modulo 2^16 (R267). -/
def Obligations.GenerationWrites : Prop :=
  ∀ (s : State) (c : Fin 64) (v : BitVec 16),
    (s.mod.hostOpen Blk.LNK = true → s.mod.ctxState c = 0 →
      exec (.genWr c v) s = .next (s.leave (s.mod.set F.CTX_STAT_gen c v.toNat).settle) ∧
      (s.mod.set F.CTX_STAT_gen c v.toNat).get F.CTX_STAT_gen c = v.toNat) ∧
    (s.mod.hostOpen Blk.LNK = true → s.mod.ctxState c ≠ 0 →
      exec (.genWr c v) s = .next (s.leave (s.mod.refuseCtx ST_CTX_STATE Blk.LNK c).settle)) ∧
    (s.mod.hostOpen Blk.CTX = true → s.mod.ctxState c = 0 → s.mod.ctxCheck c = ST_OK →
      ∀ m, m = ((s.mod.setCtx c { iludes := (s.mod.ctx c).iludes, kNow := (s.mod.ctx c).kNow }).set F.CTX_STAT_state c 1).count F.CTX_STAT_gen c 1 →
      m.get F.CTX_STAT_gen c = (s.mod.get F.CTX_STAT_gen c + 1) % 2 ^ 16 ∧
      exec (.ctxEnable c) s = .next (s.leave
        (((((m.setRegAt (R.STEP_STAT.base + R.STEP_STAT.stride * c) R.STEP_STAT.reset R.STEP_STAT.reset).set
          F.STEP_COMMITTED_step c 0).set F.STEP_LOSS_CNT_n c 0).ctxHeads c).settle)))

/-- A region command stores the staged entry where it is valid and refuses it where it is not, or loads the stored entry into
staging (R135).
A queue enable that passes its checks sets the configuration and both counters to 0; a disable drops what was fetched ahead
and leaves the records in the ring; a descriptor of PF0 is stored at its global entry after validation (R146, R157). -/
def Obligations.TableCommands : Prop :=
  (∀ (s : State) (c : Fin 64) (n : Fin 1024), s.mod.hostOpen Blk.CTX = true →
     (s.mod.regionOk c s.mod.stagedRegion = true →
       exec (.regionWrite c n) s = .next (s.leave
         (({ s.mod with regions := Tab.set 0 s.mod.regions (1024 * c + n) s.mod.stagedRegion }).set F.CTX_RGN_STAT_status 0
           ST_OK).settle)) ∧
     (s.mod.regionOk c s.mod.stagedRegion = false →
       exec (.regionWrite c n) s = .next (s.leave
         ((s.mod.set F.CTX_RGN_STAT_status 0 ST_BAD_REGION).set F.CTX_STAT_last_status c ST_BAD_REGION).settle)) ∧
     exec (.regionRead c n) s = .next (s.leave
       ((s.mod.each (List.range 4) fun m k => m.set F.CTX_RGN_STAGE_data k (bits (s.mod.region c n).toNat (64 * k) 64)).set
         F.CTX_RGN_STAT_status 0 ST_OK).settle)) ∧
  (∀ s : State,
     (∀ (q : Fin 1024) (cfg : W64), s.mod.hostOpen Blk.Q = true → s.mod.qOn q = false → s.mod.qBusy q = false →
       s.mod.queueOk q (setBits cfg.toNat 0 1 1) = true →
       let m := (s.mod.setRegAt (R.Q_CFG.base + 64 * q) 0 (setBits cfg.toNat 0 1 1 &&& R.Q_CFG.rw)).dropSigs (·.queue != q.val)
       exec (.queueEnable q cfg) s
         = .next (s.leave (m.setQueue q { flagSel := (m.queue q).flagSel, status := (m.queue q).status }).settle)) ∧
     (∀ q : Fin 1024, s.mod.hostOpen Blk.Q = true → (s.mod.get F.FLT_PEND_Q_queue (q / 64)).testBit (q % 64) = false →
       s.mod.qOn q = true →
       exec (.queueDisable q) s = .next (s.leave ((s.mod.set F.Q_CFG_enable q 0).setQueue q
         { s.mod.queue q with fetched := [], checked := false, blocked := none, stalled := false, halted := none }).settle)) ∧
     (∀ e : Fin 131072, s.mod.hostOpen Blk.TDT = true → e.val < 122880 →
       let x := s.mod.descStore (s.mod.ownerOf e) e s.mod.stagedDesc
       exec (.tdtCmd e) s = .next (s.leave (x.2.set F.TDT_CMD_STAT_status 0 x.1).settle)))

/-- At an operation boundary an in-service partition whose sequencer runs takes up the next context; the budget of the running
interlude of a context that ends first ends it (R159, R162). -/
def Obligations.SliceEvents : Prop :=
  ∀ (s : State), s.mod.works = true →
    (∀ (p : Fin 16) (c : Nat), s.mod.partUp p = true → s.mod.partReady p = true →
      s.mod.runsOn (2 ^ p.val) (fun _ => true) = false → s.mod.nextContext p = some c →
      exec (.contextSwitch p) s = .next (s.leave (s.mod.activate p c).settle)) ∧
    (∀ (e : Fin 64) (il : Interlude), s.mod.ilNext e = some il →
      exec (.interludeBudgetExpiry e) s = .next (s.leave
        (((s.mod.setCtx e { s.mod.ctx e with iludes := (s.mod.ctx e).iludes.map fun x =>
            if x.queue == il.queue then { x with ended := true, expired := some s.mod.time } else x }).cnt
          (632 + 4 * e + 1) 1).ilFinish e il.queue).settle)) ∧
    (∀ (e : Fin 64) (il : Interlude), (s.mod.ctx e).iludes = [il] → il.live = true → s.mod.ilNext e = some il)

/-! ### Module memory -/

/-- The commit of a map, every context disabled, makes the staged map the active one where every place is legal for its kind and the
zones fit their stacks (R198), and fails with `ST_BAD_REGION` where not; while some context is not disabled it fails with
`ST_CTX_STATE`. A failed commit changes nothing but the status; none moves data (R201). -/
def Obligations.ZoneCommit : Prop :=
  ∀ s : State, s.mod.hostOpen Blk.MEM = true →
    let t := (List.range 64).map s.mod.stagedZone
    ((∀ c, c < 64 → s.mod.ctxState c = 0) → (t.all zonePlaceOk && zoneMapOk t) = true →
      exec .zoneCommit s = .next (s.leave ({ (s.mod.set F.MEM_ZONE_CTL_status 0 ST_OK) with
        zones := ((List.range 64).zip t).foldl (fun (u : Tab Nat) (e : Nat × Nat) => Tab.set 0 u e.1 e.2) [] }).settle)) ∧
    ((∀ c, c < 64 → s.mod.ctxState c = 0) → (t.all zonePlaceOk && zoneMapOk t) = false →
      exec .zoneCommit s = .next (s.leave (s.mod.set F.MEM_ZONE_CTL_status 0 ST_BAD_REGION).settle)) ∧
    ((∃ c, c < 64 ∧ s.mod.ctxState c ≠ 0) →
      exec .zoneCommit s = .next (s.leave (s.mod.set F.MEM_ZONE_CTL_status 0 ST_CTX_STATE).settle))

/-- Inside the window and outside recovery mode BAR4 reads what memory holds, with free bytes for poisoned words and all ones
for a stack out of service, and writes the bytes enabled; an atomic of 4 or 8 aligned bytes answers the value before
(R202, R219-R222, R230, R231); the window is resized at once (R430). -/
def Obligations.Bar4Commands : Prop :=
  ∀ (s : State),
    (∀ (off len : Nat) (errs : List MemErr),
      let met := (s.mod.sramErrors errs).meetErrors none 0 errs
      let pa := met.bar4Addr off
      let pas := (List.range len).map (pa + ·)
      let m := (met.bar4Down pas).reach false .rd pa len
      let bad := pas.any fun a => m.bar4Up (m.stackOf a) && m.poisoned a
      let r := { m with freeN := m.freeN + (if bad then len else 0) }
      s.mod.powered = true → (s.mod.sramErrors errs).bar4Here off len = true → (s.mod.sramErrors errs).inRecovery = false →
      exec (.bar4Read off len errs) s = .next (s.leave (((r.cnt 618 len).cnt 617 len).emit
        (.completion ((List.range len).map fun j =>
          if m.bar4Up (m.stackOf (pa + j)) = false then 0xFF
          else if m.poisoned (pa + j) = true then Config.freeByte (m.freeN + j) else m.rdByte (pa + j)) bad)).settle)) ∧
    (∀ (off : Nat) (l : List (Option Byte)), s.mod.bar4Here off l.length = true → s.mod.inRecovery = false →
      let ws := ((List.range l.length).zip l).filterMap fun (e : Nat × Option Byte) => e.2.map fun b => (s.mod.bar4Addr off + e.1, b)
      let m := s.mod.bar4Down (ws.map (·.1))
      exec (.bar4Write off l) s = .next (s.leave
        (((m.cnt 619 ws.length).cnt 616 ws.length).wrOuts (fun _ => false)
          (ws.filter fun w => m.bar4Up (m.stackOf w.1)) []).settle)) ∧
    (∀ (kind : BitVec 2) (wide : Bool) (off : Nat) (a b : W64),
      let n := if wide then 8 else 4
      let pa := s.mod.bar4Addr off
      s.mod.bar4Here off n = true → off % n = 0 → kind.toNat ≤ 2 → s.mod.inRecovery = false →
      s.mod.bar4Up (s.mod.stackOf pa) = true → s.mod.poisonedIn (pa / 128 * 128) 128 = false →
      let old := s.mod.rdNat pa n
      let m := (s.mod.wrList (atAddr pa (leBytes n (atomicOp kind.toNat n old a.toNat b.toNat)))).atomic false pa n
      exec (.bar4Atomicop kind wide off a b) s = .next (s.leave
        ((((m.cnt 619 n).cnt 618 n).cnt 617 n).emit (.completion (leBytes n old) false)).settle)) ∧
    (∀ k : Nat, 28 ≤ k → k ≤ 40 → s.mod.powered = true → s.mod.pcie.link = true → s.mod.inRecovery = false →
      exec (.bar4Resize k) s = .next (s.leave ({ s.mod with pcie := { s.mod.pcie with bar4Log2 := k } }).settle))

/-- The frame of a BAR4 write to stacks in service on which nothing follows: every byte of memory outside the bytes it is given
reads as before; no register changes but the two traffic counters and what the access counts and wakes at the slices of its bytes
(R203, R205, R398), and no flag, table entry, region, queue, context, partition or port does. -/
def Obligations.Bar4WriteFrame : Prop :=
  ∀ (s t : State) (off : Nat) (l : List (Option Byte)), s.mod.bar4Here off l.length = true → s.mod.inRecovery = false →
    let ws := ((List.range l.length).zip l).filterMap fun (e : Nat × Option Byte) => e.2.map fun b => (s.mod.bar4Addr off + e.1, b)
    let m := s.mod.bar4Down (ws.map (·.1))
    let m' := ((m.cnt 619 ws.length).cnt 616 ws.length).wrOuts (fun _ => false) (ws.filter fun w => m.bar4Up (m.stackOf w.1)) []
    m = s.mod → m'.quiet → exec (.bar4Write off l) s = .next t →
    (∀ k : Nat, (∀ j, j < l.length → s.mod.key (s.mod.bar4Addr off + j) ≠ k) → t.mod.byteAt k = s.mod.byteAt k) ∧
    (∀ reg rst : Nat, (∀ w ∈ ws, sliceReg (s.mod.stackOf (256 * (w.1 / 256))) reg = false) →
      t.mod.regAt reg rst = ((s.mod.cnt 619 ws.length).cnt 616 ws.length).regAt reg rst) ∧
    t.mod.flags = s.mod.flags ∧ t.mod.tdt = s.mod.tdt ∧ t.mod.regions = s.mod.regions ∧ t.mod.queues = s.mod.queues ∧
    t.mod.ctxs = s.mod.ctxs ∧ t.mod.parts = s.mod.parts ∧ t.mod.ports = s.mod.ports ∧ t.pending = s.pending

/-- A completion that answers an outstanding host request, or its failure, is taken (R228, R229).
Memory sides and stacks: a gated side wakes in MS0 and MS1; a scrub reads the next word and moves on, counting a pass at the
end (R203, R219, R223); a slice scrub counts its errors.
Stack temperature and stack faults (R222, R224-R226): a sample below the trip level of a stack in service is stored, sets
the level and logs an entry into level 3 or above; a cooled stack returns; a parity error or a lost PHY link is a stack fault. -/
def Obligations.MemoryEvents : Prop :=
  (∀ (s : State) (tag : Nat), s.mod.works = true →
     (∃ q ∈ s.mod.pcie.reqs, q.tag = tag ∧ q.sent = true) →
     (∀ (data : List Byte) (poisoned : Bool), exec (.hostCompletion tag data poisoned) s
       = .next (s.leave (s.mod.hostTake tag data (!poisoned)).settle)) ∧
     exec (.hostRequestFailed tag) s = .next (s.leave (s.mod.hostTake tag [] false).settle)) ∧
  (∀ (s : State) (p : Fin 16),
     (s.mod.powered = true → s.mod.get F.PWR_MS_CTL_state < 2 →
       exec (.memorySideWake p) s = .next (s.leave (s.mod.set F.MEM_STACK_STAT_gated p 0).settle)) ∧
     (∀ (bits_ : Nat) (late : Bool), s.mod.works = true → s.mod.on F.MEM_SCRUB_CFG_enable = true → s.mod.partUp p = true →
       (s.mod.part p).selfRefresh = false → s.mod.on F.MEM_STACK_STAT_gated p = false →
       let w := (s.mod.part p).scrubPos
       let next := (w + 1) % 2 ^ 33
       let m := ((s.mod.setPart p { s.mod.part p with scrubPos := next }).cnt (128 + 8 * p + 2) 8).set
         F.MEM_SCRUB_STAT_position p (next * 8 / 4096)
       let done := m.count F.MEM_SCRUB_STAT_passes p 1
       exec (.patrolScrubRead p bits_ late) s = .next (s.leave
         ((if next = 0 then (if late then done.scrubLate p else done) else m).wordError 1 (p * 2 ^ 33 + w) bits_).settle)) ∧
     (∀ (errs : List MemErr) (late : Bool), s.mod.works = true → s.mod.partUp p = true → s.mod.on F.MEM_STACK_STAT_gated p = false →
       exec (.sliceScrub p errs late) s = .next (s.leave (errs.foldl (fun m e => match e with
         | .slice w b => if w / 2 ^ 33 = p.val then m.sliceError 1 w b else m
         | _ => m) s.mod).settle))) ∧
  (∀ (s : State) (p : Fin 16), s.mod.powered = true →
     (∀ t : BitVec 8, t.toNat < 110 →
       let m := (s.mod.set F.MEM_STACK_STAT_temp_c p t.toNat).hottest
       (m.part p).selfRefresh = false →
       let cur := m.get F.MEM_STACK_STAT_level p
       let new := stackLevelNext cur t.toNat
       new ≠ 4 →
       exec (.stackTempSample p t) s = .next (s.leave
         (if cur < 3 && 3 ≤ new then
           (m.stackLevel p new).log { st := ST_STACK_HOT, cls := .event, block := Blk.MEM, part := p }
          else m.stackLevel p new).settle)) ∧
     ((s.mod.part p).selfRefresh = true → s.mod.failed = false →
       exec (.stackCooledReturn p) s = .next (s.leave
         ((s.mod.stackLevel p (stackFall (s.mod.get F.MEM_STACK_STAT_temp_c p) 3)).partReturn p).settle)) ∧
     (s.mod.partUp p = true → s.mod.on F.MEM_STACK_STAT_stack_fault p = false →
       exec (.stackParityError p) s = .next (s.leave (s.mod.stackFault p).settle) ∧
       exec (.stackPhyLinkLoss p) s = .next (s.leave (s.mod.stackFault p).settle)))

/-! ### The fabric -/

/-- Port commands (R238, R241, R265): an enable of a disabled port on a live axis starts training; a disable leaves service with
its notice; a retrain clears the port and trains it; a fence of a usable port begins to fence it; an unfence serves it again. -/
def Obligations.PortCommands : Prop :=
  ∀ (s : State) (n : Fin 8), s.mod.hostOpen Blk.LNK = true →
    (s.mod.on F.LNK_CFG_enable n = false → (s.mod.set F.LNK_CFG_enable n 1).axisLive n = true →
      (s.mod.set F.LNK_CFG_enable n 1).failed = false →
      exec (.portEnable n) s = .next (s.leave ((s.mod.set F.LNK_CFG_enable n 1).portTrain n).settle)) ∧
    (s.mod.get F.LNK_STAT_state n ≠ 0 →
      exec (.portDisable n) s
        = .next (s.leave (((s.mod.set F.LNK_CFG_enable n 0).portLeave n 0).set F.LNK_STAT_peer_valid n 0).settle)) ∧
    (s.mod.on F.LNK_CFG_enable n = true → s.mod.axisLive n = true → s.mod.failed = false →
      exec (.portRetrain n) s
        = .next (s.leave ((((s.mod.portClear n).portTrain n).portAvail n).discCheck.notice n).settle)) ∧
    ((s.mod.set F.LNK_CFG_fence n 1).usable n = true →
      let m := s.mod.set F.LNK_CFG_fence n 1
      exec (.portFence n) s
        = .next (s.leave ((m.setPort n { m.port n with fencing := true }).fenceCheck n).settle)) ∧
    (∀ m : Mod, m = (s.mod.set F.LNK_CFG_fence n 0).setPort n
        { (s.mod.set F.LNK_CFG_fence n 0).port n with fencing := false } → m.get F.LNK_STAT_state n = 4 →
      exec (.portUnfence n) s = .next (s.leave (m.portServe n (m.get F.LNK_STAT_lane_mask n)).settle))

/-- Training (Table 8.3, R239, R241, R264): a detected peer fixes the mode; a training that finds a lane group and a peer of the
right kind serves the port, tells or asks the peer, and takes an address the peer knows, one without a lane group leaves the port
down; a lane that fails outside the running
group is only noted; a port that stays down a second trains again. -/
def Obligations.TrainingEvents : Prop :=
  ∀ (s : State) (n : Fin 8), s.mod.linkOpen = true →
    (∀ mode : Fin 3, s.mod.get F.LNK_STAT_state n = 1 →
      let m := ((s.mod.setPort n { s.mod.port n with peerMode := some mode.val }).emit
        (.capabilities n (s.mod.get F.LNK_CFG_max_mode n))).set F.LNK_STAT_no_peer n 0
      exec (.peerDetected n mode) s
        = .next (s.leave (m.set F.LNK_STAT_mode n (Min.min mode.val (s.mod.get F.LNK_CFG_max_mode n))).settle)) ∧
    (∀ (failed : BitVec 8) (id : Option Identity), s.mod.get F.LNK_STAT_state n = 1 → (s.mod.port n).peerMode.isSome = true →
      (pickGroup failed.toNat (minLanes ((s.mod.set F.LNK_STAT_failed_mask n failed.toNat).get F.LNK_CFG_min_width n)) 8 = none →
        s.mod.trained n failed.toNat id = (s.mod.set F.LNK_STAT_failed_mask n failed.toNat).portDown n) ∧
      (let m := s.mod.trained n failed.toNat id
       let m1 := { m with fab := { m.fab with started := true } }
       let m2 := if m1.fab.haveAddr then m1.tellPeer n else if m1.get F.RTE_SELF_disc_state = 1 then m1.floodKey else m1
       exec (.trainingComplete n failed id) s = .next (s.leave
         (if m.usable n = true then
           match id.bind (·.phys) with
           | some a => m2.told n (m2.implied a.toNat (if n.val % 2 = 0 then n + 1 else n - 1))
           | none => m2
          else m).settle))) ∧
    (∀ lanes : BitVec 8, s.mod.carries0 n = true →
      let b := ({ s.mod with freeN := s.mod.freeN + 1 }).bump F.LNK_ERR_fec_uncorr n (Config.freeNat s.mod.freeN)
      let m := b.set F.LNK_STAT_failed_mask n (b.get F.LNK_STAT_failed_mask n ||| lanes.toNat)
      let cur := b.get F.LNK_STAT_lane_mask n
      (cur &&& lanes.toNat = 0 → exec (.laneFail n lanes) s = .next (s.leave m.settle)) ∧
      (∀ g, cur &&& lanes.toNat ≠ 0 →
        pickGroup (b.get F.LNK_STAT_failed_mask n ||| lanes.toNat) (minLanes (m.get F.LNK_CFG_min_width n)) (laneCount cur)
          = some g →
        let m1 := m.set F.LNK_STAT_lane_mask n g
        let m2 := if m1.usable n then m1.set F.LNK_STAT_state n (if laneCount g = 8 then 2 else 3) else m1
        exec (.laneFail n lanes) s
          = .next (s.leave (m2.replayFrom n (((m2.port n).replay.head?.map (·.seq)).getD 0)).settle))) ∧
    (s.mod.get F.LNK_STAT_state n = 5 → s.mod.on F.LNK_CFG_auto_retrain n = true → s.mod.on F.LNK_CFG_enable n = true →
      s.mod.failed = false → s.mod.get F.PWR_MS_CTL_state ≠ 3 →
      exec (.autoRetrain n) s = .next (s.leave (s.mod.portTrain n).settle))

/-- Flits (R243-R247, R263): a good DATA flit with the expected number is accepted, takes its credits and clears the wait for a
replay; a NAK below the eighth of one flit replays from the flit it names; a good IDLE or KEEPALIVE flit gives back credits; a
port in service sends its KEEPALIVE; 30 microseconds without one bring it down.
A flit whose CRC is wrong is not accepted: the error is counted, and a NAK answers a DATA flit
(R244, R245). -/
def Obligations.FlitsTaken : Prop :=
  (∀ (s : State) (n : Fin 8), s.mod.works = true → s.mod.boot.jtag = false → s.mod.carries0 n = true →
     (∀ l : List Byte, Ft.good l = true → Ft.ftype l = 0 → Ft.vc l < 6 →
       let m := s.mod.takeReturns n l
       Ft.seq l = (m.port n).rxNext → Ft.seq l < 65536 →
       let k := vcKey (Ft.vc l) (Ft.cls l)
       let p := m.port n
       exec (.dataFlitReceive n l) s = .next (s.leave ((m.cnt (288 + 32 * n + 4 * Ft.vc l + 1) 1).setPort n
         { p with rxNext := (p.rxNext + 1) % 65536, nakWait := false,
                  rxHeld := Tab.set 0 p.rxHeld k (Tab.get 0 p.rxHeld k + 1) }).settle)) ∧
     (∀ (l : List Byte) (lanes : BitVec 8), Ft.good l = true → Ft.ftype l = 3 →
       let p := s.mod.port n
       let a := Ft.ack l
       let count := if p.nakCount ≠ 0 && p.nakSeq = a then p.nakCount + 1 else 1
       let key := vcKey (Ft.crVc l) (Ft.crCls l)
       count ≠ 8 →
       let p' := { p with
         nakSeq := a, nakCount := count % 8,
         replay := if p.replay.any (·.seq == a) then p.replay.dropWhile (·.seq != a)
           else if p.txSeq = a then [] else p.replay,
         credits := Tab.set 0 p.credits key (Min.min (Tab.get 0 p.credits key + Ft.crCnt l) (vcBuffer (Ft.crVc l))) }
       exec (.nakReceive n l lanes) s = .next (s.leave (((s.mod.setPort n p').replayFrom n a).drain n).settle)) ∧
     (∀ l : List Byte, Ft.good l = true → Ft.ftype l = 1 →
       exec (.idleFlitReceive n l) s = .next (s.leave (s.mod.takeReturns n l).settle)) ∧
     (∀ l : List Byte, Ft.good l = true → Ft.ftype l = 2 → Ft.probe l = false →
       exec (.keepaliveReceive n l) s = .next (s.leave (s.mod.takeReturns n l).settle)) ∧
     (s.mod.fab.silent.testBit (n / 4) = false →
       let p := s.mod.port n
       let probe := s.mod.on F.LNK_PROBE_CFG_enable
         && (p.keepalives + 1) % 2 ^ s.mod.get F.LNK_PROBE_CFG_interval_log2 == 0
       let m := s.mod.setPort n { p with keepalives := p.keepalives + 1 }
       let x := m.flitHead n 2 p.acked
       exec (.keepaliveSend n) s = .next (s.leave (x.2.emit (.ctlFlit n (mkFlit (x.1 + b2n probe * 2 ^ 52)
         (leBytes 8 x.2.time ++ leBytes 4 (x.2.phys + n * 2 ^ 24))))).settle)) ∧
     exec (.keepaliveTimeout n) s = .next (s.leave (s.mod.portDown n).settle)) ∧
  (∀ (s : State) (n : Fin 8) (l : List Byte), s.mod.works = true → s.mod.boot.jtag = false → s.mod.carries0 n = true →
     Ft.good l = false →
     let m := s.mod.crcError n
     exec (.dataFlitReceive n l) s = .next (s.leave
       (((m.setPort n { m.port n with nakWait := true }).sendNak n).settle)) ∧
     (∀ lanes, exec (.nakReceive n l lanes) s = .next (s.leave m.settle)) ∧
     exec (.idleFlitReceive n l) s = .next (s.leave m.settle) ∧ exec (.keepaliveReceive n l) s = .next (s.leave m.settle))

/-- A packet of a kind that arrives on a port in service, addressed to this module, of its routing epoch and of its context's
generation, is taken by what that kind names (R250, R255, R256, R259, R267); one with hops left goes on along its route.
A flood that this module has seen is dropped; another is passed on and taken (R260, R264, R265).
A discovery packet with an address tells this module its own; one with a root key is kept and flooded on where the key is lower
than every one seen before, and changes nothing otherwise (R254). -/
def Obligations.PacketsArrive : Prop :=
  (∀ (s : State) (n : Fin 8) (p : Packet), s.mod.works = true → s.mod.carries0 n = true →
     (∀ e : Instr × Nat, e ∈ packetKinds n p → p.hdr.ptype.toNat = e.2 → flooded p = false →
       (∀ a, p.payload ≠ .address a) → p.hdr.dst.toNat = s.mod.phys → s.mod.epochOk p = true → s.mod.genOk p = true →
       exec e.1 s = .next (s.leave (s.mod.consume n p).settle)) ∧
     (∀ (vc : Fin 8) (cls : Bool) (o r : Nat) (wrap : Bool),
       (if vc.val = 0 then s.mod.carries0 n else s.mod.usable n) = true → flooded p = false →
       let m := s.mod.releaseRx n vc cls (flitCount p)
       m.hop p.hdr.route.toNat = some (o, r, wrap) → m.accepts o vc = true →
       exec (.packetReceive n vc cls p) s = .next (s.leave
         (m.enqueue o vc (wrap || (cls && o / 2 == n / 2)) { p with hdr := { p.hdr with route := BitVec.ofNat 32 r } }).settle))) ∧
  (∀ (s : State) (n : Fin 8) (p : Packet) (e : Instr × Nat), e ∈ packetKinds n p → p.hdr.ptype.toNat = e.2 →
     s.mod.works = true → s.mod.carries0 n = true → flooded p = true → (∀ k i, p.payload ≠ .rootKey k i) →
     let x := s.mod.seenPair p.hdr.src.toNat p.hdr.bseq.toNat
     exec e.1 s = .next (s.leave (if x.1 then x.2 else (x.2.floodOut p n).consume n p).settle)) ∧
  (∀ (s : State) (n : Fin 8) (p : Packet), p.hdr.ptype = 0x01 → s.mod.works = true → s.mod.carries0 n = true →
     (∀ a : BitVec 24, p.payload = .address a → flooded p = false →
       exec (.discoveryReceive n p) s = .next (s.leave (s.mod.told n a.toNat).settle)) ∧
     (∀ (k : Byte) (i : BitVec 64), p.payload = .rootKey k i → flooded p = true →
       ((∀ b, s.mod.fab.bestKey = some b → keyLt (k.toNat, i.toNat) b = true) →
         let m := s.mod.floodOut p n
         exec (.discoveryReceive n p) s
           = .next (s.leave ({ m with fab := { m.fab with bestKey := some (k.toNat, i.toNat) } }).settle)) ∧
       (∀ b, s.mod.fab.bestKey = some b → keyLt (k.toNat, i.toNat) b = false →
         exec (.discoveryReceive n p) s = .next (s.leave s.mod.settle))))

/-- Discovery goes on (R254): after the join window a module without peers becomes root, one with peers starts its election
with its own key; a module whose key stands as the lowest becomes root.
A link die without progress is marked silent and recorded, and its ports go down (R372). -/
def Obligations.DiscoveryGoesOn : Prop :=
  (∀ s : State, s.mod.works = true → s.mod.fab.haveAddr = false →
     (s.mod.get F.RTE_SELF_disc_state = 0 → s.mod.fab.started = false →
       exec .joinWindowExpiry s = .next (s.leave s.mod.takeRoot.settle)) ∧
     (s.mod.get F.RTE_SELF_disc_state = 0 → s.mod.fab.started = true →
       exec .joinWindowExpiry s
         = .next (s.leave (((s.mod.set F.RTE_SELF_disc_state 0 1).keySeen s.mod.rootKey).floodKey).settle)) ∧
     (s.mod.get F.RTE_SELF_disc_state = 1 → s.mod.fab.bestKey = some s.mod.rootKey →
       exec .electionTimeout s = .next (s.leave s.mod.takeRoot.settle))) ∧
  (∀ (s : State) (d : Fin 2), s.mod.works = true →
     let m := ({ s.mod with fab := { s.mod.fab with silent := setBits s.mod.fab.silent d 1 1 } }).log
       { st := ST_WATCHDOG, cls := .event, block := Blk.LNK, d0 := d }
     exec (.linkWatchdogExpiry d) s = .next (s.leave
       (m.each (((List.range 4).map (4 * d.val + ·)).filter fun n => m.carries0 n) Mod.portDown).settle))

/-- `RTE_CMD` (R260, R272): a valid staged table is installed with the next epoch, and flooded by a broadcast commit; a refused
one changes only the status; the active tables are loaded into staging; the automatic detours are cleared. -/
def Obligations.RouteCommands : Prop :=
  ∀ s : State, s.mod.hostOpen Blk.RTE = true →
    let r := s.mod.stagedRoutes.1
    let d := s.mod.stagedRoutes.2
    let e := (s.mod.get F.RTE_EPOCH_epoch + 1) % 65536
    let m := (s.mod.installRoutes r d e).set F.RTE_CMD_status 0 ST_OK
    (s.mod.routesOk r d = true →
      exec .routeCommitLocal s = .next (s.leave m.settle) ∧
      exec .routeCommitBroadcast s = .next (s.leave (m.flood 0x03 (.routes (BitVec.ofNat 16 e) r d)).settle)) ∧
    (s.mod.routesOk r d = false →
      exec .routeCommitLocal s = .next (s.leave (s.mod.set F.RTE_CMD_status 0 ST_BAD_ROUTE).settle) ∧
      exec .routeCommitBroadcast s = .next (s.leave (s.mod.set F.RTE_CMD_status 0 ST_BAD_ROUTE).settle)) ∧
    exec .routeClearAuto s = .next (s.leave
      ((s.mod.each ((List.range 32).map (224 + ·)) fun m j => m.setAuto j 0).set F.RTE_CMD_status 0 ST_OK).settle) ∧
    (let t := (s.mod.regs.clear R.RTE_REMAP.base (R.RTE_REMAP.base + 8 * 4096)).clear R.RTE_DETOUR.base
        (R.RTE_DETOUR.base + 8 * 224)
      let t := s.mod.fab.remap.foldl (fun (u : Tab W64) x => Tab.set 0 u (R.RTE_REMAP.base + 8 * x.1) x.2) t
      let t := (s.mod.fab.detour.filter fun x => decide (x.1 < 224)).foldl
        (fun (u : Tab W64) x => Tab.set 0 u (R.RTE_DETOUR.base + 8 * x.1) x.2) t
      exec .routeLoadStaging s = .next (s.leave (({ s.mod with regs := t }).set F.RTE_CMD_status 0 ST_OK).settle))

/-! ### Collectives, steps and casts -/

/-- Timeouts, the end of the update phase and the verdict (R296, R297, R314-R317, R375). -/
def Obligations.StepEvents : Prop :=
  ∀ s : State, s.mod.works = true →
    (∀ (q : Fin 1024) (o : Op), (s.mod.queue q).op = some o → 0x50 ≤ Rc.opcode o.rcd → Rc.opcode o.rcd ≤ 0x55 →
      o.ready = false →
      let t := s.mod.summary F.FLT_SUMMARY_timeout
      let m := if Rc.opcode o.rcd = 0x55 ∧ RuRec.local_ o.rcd = true then t else t.tagDead (qCtx q) (CoRec.tag o.rcd)
      exec (.collTimeout q) s = .next (s.leave ((m.jobAbort (.q q) ST_COLL_TIMEOUT).complete q).settle)) ∧
    (∀ c : Fin 64, s.mod.stepOpen c = true → s.mod.get F.STEP_STAT_state c ≠ 1 → (s.mod.ctx c).updDone = false →
      s.mod.updOver c = true →
      let x := s.mod.ctx c
      let n := x.norm.getD (0, false)
      let m := (s.mod.set F.UPD_NORM_norm c n.1).set F.UPD_NORM_valid c (b2n n.2)
      let m := m.set F.UPD_NORM_nonfinite c (b2n (x.normNf || !(num32 n.1).isFin))
      let m := m.set F.UPD_NORM_redo_layers c (min x.redone 65535)
      let m := if x.updErr then m else m.set F.UPD_NORM_phase c 3
      exec (.updatePhaseDone c) s = .next (s.leave (m.setCtx c { m.ctx c with updDone := true }).settle)) ∧
    (∀ c : Fin 64, (s.mod.get F.STEP_STAT_state c = 2 ∨ s.mod.get F.STEP_STAT_state c = 3) → (s.mod.ctx c).lossDone = true →
      (s.mod.ctx c).aggDone = true → (s.mod.ctx c).updDone = true → s.mod.on F.STEP_STAT_verdict_fixed c = false →
      (s.mod.condHolds c).all (! ·) = true → (s.mod.condHolds c).length = 6 →
      let m := (s.mod.set F.STEP_STAT_verdict_fixed c 1).set F.STEP_STAT_cond c 0
      exec (.verdictFixed c) s
        = .next (s.leave ((m.setCtx c { m.ctx c with verdict := some (true, false) }).voteGo c).settle))

/-- `STEP_CTL` (R315, R319, R323): a veto before the verdict makes the host's condition hold; an abandon abandons the open
step; a close waits for its conditions and then fails the step; `clear_halt` returns a halted controller to `IDLE`. Without an
open step, and `clear_halt` of a controller that is not halted, they are refused with `ST_NO_STEP`. -/
def Obligations.StepControl : Prop :=
  ∀ (s : State) (c : Fin 64),
    (s.mod.hostOpen Blk.STEP = true → s.mod.stepOpen c = true →
      (s.mod.on F.STEP_STAT_verdict_fixed c = false →
        exec (.stepVeto c) s = .next (s.leave (s.mod.setCtx c { s.mod.ctx c with hostVeto := true }).settle)) ∧
      exec (.stepAbandon c) s = .next (s.leave (s.mod.abandonStep c false).settle) ∧
      exec (.stepClose c) s = .next (s.leave (s.mod.set F.STEP_STAT_close_pending c 1).settle)) ∧
    (s.mod.hostOpen Blk.STEP = true → s.mod.stepOpen c = false →
      exec (.stepVeto c) s = .next (s.leave (s.mod.refuseCtx ST_NO_STEP Blk.STEP c).settle) ∧
      exec (.stepAbandon c) s = .next (s.leave (s.mod.refuseCtx ST_NO_STEP Blk.STEP c).settle) ∧
      exec (.stepClose c) s = .next (s.leave (s.mod.refuseCtx ST_NO_STEP Blk.STEP c).settle)) ∧
    (s.mod.works = true → s.mod.stepOpen c = true → s.mod.on F.STEP_STAT_close_pending c = true →
      s.mod.opsRunning c [0x62, 0x63, 0x55] = false → (s.mod.get F.STEP_STAT_state c = 1 ∨ (s.mod.ctx c).updDone = true) →
      exec (.closeTakesEffect c) s = .next (s.leave
        ((((s.mod.steerResolve c false).stepFailed c 0).spanForget c 0).stepTrace c 5).settle)) ∧
    (s.mod.hostOpen Blk.STEP = true → s.mod.get F.STEP_STAT_state c = 5 →
      exec (.stepClearHalt c) s = .next (s.leave (s.mod.set F.STEP_STAT_state c 0).settle)) ∧
    (s.mod.hostOpen Blk.STEP = true → s.mod.get F.STEP_STAT_state c ≠ 5 →
      exec (.stepClearHalt c) s = .next (s.leave (s.mod.refuseCtx ST_NO_STEP Blk.STEP c).settle))

/-- A write of `STEP_SET` names the committed step in `IDLE` or `HALTED`, and is refused with `ST_STEP_OPEN` in any other state
(R324). -/
def Obligations.StepSet : Prop :=
  ∀ (s : State) (c : Fin 64) (v : W64), s.mod.hostOpen Blk.STEP = true →
    ((s.mod.get F.STEP_STAT_state c = 0 ∨ s.mod.get F.STEP_STAT_state c = 5) →
      exec (.stepSet c v) s = .next (s.leave (s.mod.set F.STEP_COMMITTED_step c v.toNat).settle) ∧
      (s.mod.set F.STEP_COMMITTED_step c v.toNat).get F.STEP_COMMITTED_step c = v.toNat) ∧
    (s.mod.get F.STEP_STAT_state c ≠ 0 → s.mod.get F.STEP_STAT_state c ≠ 5 →
      exec (.stepSet c v) s = .next (s.leave (s.mod.refuseCtx ST_STEP_OPEN Blk.STEP c).settle))

/-- Cast commands (R331, R334, R350, R353): a load whose checks pass stores the placed list and asks for a full cast next; an
unload abandons what drains and forgets the list; a restore abandons the drain, holds the queues and asks for the record; a
restore whose data have all come writes them; a generation that takes too long is abandoned. -/
def Obligations.CastCommands : Prop :=
  ∀ (s : State) (c : Fin 64),
    (∀ (blank : Bool) (l : List CastEntry), s.mod.hostOpen Blk.CAST = true → s.mod.on F.CAST_CMD_busy c = false →
      s.mod.castCheck c blank = (ST_OK, l) →
      let m := (s.mod.reach false .rd (s.mod.castListAt c) (32 * l.length)).setCtx c
        { s.mod.ctx c with castLoaded := true, castList := l }
      let m := ((List.range l.length).zip l).foldl
        (fun m e => m.wrInt (m.castListAt c + 32 * e.1) (leBytes 32 e.2.raw.toNat)) m
      let m := m.set F.CAST_STAT_state c (if (m.ctx c).drain.isSome then 2 else 1)
      exec (.castLoad c blank) s = .next (s.leave ((m.set F.CAST_STAT_full_next c 1).castCmdEnd c ST_OK).settle)) ∧
    (s.mod.hostOpen Blk.CAST = true → s.mod.on F.CAST_CMD_busy c = false →
      let m := s.mod.genAbandon c ST_CAST_ABANDONED
      let m := m.setCtx c { m.ctx c with castLoaded := false, castList := [] }
      exec (.castUnload c) s = .next (s.leave ((m.set F.CAST_STAT_state c 0).castCmdEnd c ST_OK).settle)) ∧
    (∀ check : Bool, s.mod.hostOpen Blk.CAST = true → s.mod.on F.CAST_CMD_busy c = false → s.mod.stepOpen c = false →
      (s.mod.ctx c).castLoaded = true → (ctxQueues c).any s.mod.qBusy = false →
      let g := if s.mod.get F.CAST_RESTORE_GEN_gen c = 0 then s.mod.get F.CAST_GEN_gen_job c
        else s.mod.get F.CAST_RESTORE_GEN_gen c
      let m := s.mod.set F.CAST_CMD_busy c 1
      let m := (m.setCtx c { m.ctx c with restore := some { gen := BitVec.ofNat 32 g, check := check } }).genAbandon c
        ST_CAST_ABANDONED
      let m := m.set F.CAST_STAT_state c 3
      exec (.castRestore c check) s
        = .next (s.leave (m.recordTry c g check (m.logical :: m.castPeers c false)).settle)) ∧
    (∀ (r : Restore) (rcd : List Byte), s.mod.works = true → (s.mod.ctx c).restore = some r → r.record = some rcd →
      r.want = [] → exec (.restoreComplete c) s = .next (s.leave (s.mod.restoreDone c).settle)) ∧
    (s.mod.works = true → s.mod.get F.CAST_CFG_abandon_ms c ≠ 0 → (s.mod.ctx c).drain.isSome = true →
      exec (.castAbandonTimeout c) s = .next (s.leave (s.mod.genAbandon c ST_CAST_ABANDONED).settle))

/-! ### Resets, faults, hangs, dumps, microcode -/

/-- `FLT_RESET` with its key and `module` set restarts the module at bring-up step 1 with cause 1; another key is refused
(R368).
Partition resets, enables and disables (R364, R365, R384, R463). -/
def Obligations.Resets : Prop :=
  (∀ (s : State) (v : W32), s.mod.hostOpen Blk.FLT = true →
     (bits v.toNat 0 16 = 0xA5C3 → v.toNat.testBit 16 = true →
       exec (.moduleReset v) s = .next (s.leave (s.mod.wholeReset 1 false).settle) ∧
       (s.mod.wholeReset 1 false).time = 0 ∧ (s.mod.wholeReset 1 false).mem = [] ∧
       (s.mod.wholeReset 1 false).flags = [] ∧ (s.mod.wholeReset 1 false).pwr.rails = .waitFlow ∧
       (s.mod.wholeReset 1 false).flash = s.mod.flash) ∧
     (bits v.toNat 0 16 ≠ 0xA5C3 →
       exec (.moduleReset v) s = .next (s.leave (s.mod.refuse ST_BAD_ACCESS Blk.FLT 0x18).settle))) ∧
  (∀ (s : State) (p : Fin 16),
     (s.mod.hostOpen Blk.PART = true → (s.mod.get F.PART_STAT_state p = 2 ∨ s.mod.get F.PART_STAT_state p = 3) →
       s.mod.failed = false →
       exec (.partReset p) s = .next (s.leave (s.mod.partResetNow p 2 ST_PART_RESET).settle)) ∧
     (s.mod.powered = true → s.mod.get F.PART_STAT_state p = 5 → (s.mod.part p).selfRefresh = false → s.mod.failed = false →
       exec (.partResetComplete p) s = .next (s.leave (s.mod.partReturn p).settle)) ∧
     (s.mod.hostOpen Blk.PART = true → s.mod.get F.PART_STAT_state p = 0 → (s.mod.set F.PART_CTL_enable p 1).on F.BOOT_STAT_ready = true →
       (s.mod.set F.PART_CTL_enable p 1).failed = false → (((s.mod.set F.PART_CTL_enable p 1).partRun p).part p).stopTime = 0 →
       exec (.partEnable p) s = .next (s.leave ((s.mod.set F.PART_CTL_enable p 1).partRun p).settle)) ∧
     (s.mod.hostOpen Blk.PART = true → (s.mod.get F.FLT_PEND_BLK_part).testBit p = false →
       (∀ c, c < 64 → s.mod.ctxState c = 0 ∨ (s.mod.get F.CTX_CFG_part_mask c).testBit p = false) →
       (s.mod.get F.PART_STAT_state p = 2 ∨ s.mod.get F.PART_STAT_state p = 3) →
       exec (.partDisable p) s
         = .next (s.leave (((s.mod.set F.PART_CTL_enable p 0).parkEnd p ST_BUSY).partOff p).settle)))

/-- Hang detection (R373, R374, R377, R378): an operation that outlives its limit is aborted with `ST_OP_TIMEOUT`; a share that
does not stop resets its partition; a queue whose head waits too long is recorded once; a scan takes up what it finds. -/
def Obligations.HangEvents : Prop :=
  ∀ s : State, s.mod.works = true →
    (∀ (q : Fin 1024) (o : Op), (s.mod.queue q).op = some o → timedOp (Rc.opcode o.rcd) = true →
      exec (.opTimeout q) s = .next (s.leave ((s.mod.summary F.FLT_SUMMARY_timeout).abortOp q ST_OP_TIMEOUT).settle)) ∧
    (∀ (q : Fin 1024) (parts : BitVec 16) (p : Nat), (s.mod.queue q).halted = some ST_OP_TIMEOUT →
      bitList 16 (parts.toNat &&& s.mod.qMask q) = [p] → s.mod.get F.PART_STAT_state p = 2 →
      exec (.shareStopTimeout q parts) s
        = .next (s.leave ((if s.mod.lastReset p then s.mod else s.mod.dumpAuto ST_OP_TIMEOUT 3).faultReset p
          ST_OP_TIMEOUT).settle)) ∧
    (∀ q : Fin 1024, s.mod.get F.HANG_CTX_CFG_queue_ms (qCtx q) ≠ 0 → s.mod.qOn q = true → (s.mod.queue q).waiting ≠ 0 →
      (s.mod.queue q).halted = none → s.mod.held q = false → (s.mod.queue q).stalled = false →
      exec (.queueStall q) s = .next (s.leave ((s.mod.setQueue q { s.mod.queue q with stalled := true }).log
        { st := ST_QUEUE_STALL, cls := .event, block := Blk.Q, ctx := qCtx q, queue := q }).settle)) ∧
    (s.mod.on F.HANG_CFG_enable = true →
      let fs := s.mod.findings
      let keep := s.mod.hang.knots.filter fun k => fs.any fun f => k.kind == f.1 && k.members.map (·.1) == f.2.map (·.1)
      let m := { s.mod with hang := { s.mod.hang with knots := keep } }
      exec .deadlockScan s = .next (s.leave (fs.foldl Mod.knotStep m).settle)) ∧
    (s.mod.on F.HANG_CFG_enable = false →
      exec .deadlockScan s = .next (s.leave ({ s.mod with hang := { s.mod.hang with knots := [] } }).settle))

/-- A block that does not answer and an Armature without progress are recorded; an unanswered read gives all ones (R371,
R372).
Crash dumps (R379, R380): a trigger begins a capture where none runs or is held and is counted as missed otherwise; discard
drops the dump; the end of a capture publishes it. -/
def Obligations.DumpsAndSilence : Prop :=
  (∀ s : State, s.mod.powered = true →
     exec .armatureWatchdogExpiry s
       = .next (s.leave (s.mod.log { st := ST_WATCHDOG, cls := .event, block := Blk.BOOT }).settle) ∧
     ∀ off : Nat, s.mod.pcie.link = true →
       let m := s.mod.log { st := ST_NO_RESPONSE, cls := .event, block := blockOf off, d0 := off }
       exec (.bar0NoResponse off true) s = .next (s.leave m) ∧
       exec (.bar0NoResponse off false) s = .next (s.leave (m.emit (.completion (List.replicate 8 0xFF) false)))) ∧
  (∀ s : State,
     (s.mod.hostOpen Blk.DUMP = true →
       (s.mod.on F.DUMP_STAT_valid = false → s.mod.on F.DUMP_STAT_busy = false →
         exec .dumpTrigger s = .next (s.leave ({ (s.mod.set F.DUMP_STAT_busy 0 1) with
           capture := some { cause := ST_OK, trigger := 0, start := s.mod.time } }).settle)) ∧
       (s.mod.on F.DUMP_STAT_valid = true →
         exec .dumpTrigger s = .next (s.leave (s.mod.bump F.DUMP_STAT_missed 0 1).settle)) ∧
       exec .dumpDiscard s = .next (s.leave ((s.mod.set F.DUMP_STAT_valid 0 0).set F.DUMP_STAT_missed 0 0).settle)) ∧
     (∀ (l : List (List Byte × Option Nat)) (c : Capture), s.mod.powered = true → s.mod.capture = some c →
       exec (.dumpCaptureDone l) s = .next (s.leave (s.mod.dumpDone l).settle) ∧
       (s.mod.dumpDone l).capture = none ∧ (s.mod.dumpDone l).on F.DUMP_STAT_valid = true))

/-- Microcode (R385): a verified, well-formed image asks its partition to park, and any other ends with its status; a parked partition that runs nothing takes the
image and resumes; a park that takes too long ends with `ST_BUSY`. -/
def Obligations.MicrocodeLoads : Prop :=
  ∀ (s : State) (p : Fin 16),
    (s.mod.hostOpen Blk.PART = true → s.mod.on F.PART_UCODE_CMD_busy = false →
      let m := s.mod.imageReach (s.mod.get F.PART_UCODE_ADDR_base * 4096)
      let x := m.readImage (m.get F.PART_UCODE_ADDR_base * 4096)
      let st := m.verified x [3] (m.part p).ucode.svn
      exec (.ucodeLoad p) s = .next (s.leave
        (if st ≠ ST_OK then m.set F.PART_UCODE_CMD_status 0 st
         else if Config.ucodeOk (x.2.drop 1024) = true then
           (m.setPart p { m.part p with park := some (imageOf x.2) }).set F.PART_UCODE_CMD_busy 0 1
         else m.set F.PART_UCODE_CMD_status 0 ST_UCODE_INVALID).settle)) ∧
    (∀ im : Image, s.mod.works = true → (s.mod.part p).park = some im → s.mod.get F.PART_STAT_state p = 2 →
      s.mod.runsOn (2 ^ p.val) (fun _ => true) = false →
      exec (.ucodeParked p) s = .next (s.leave
        ((((s.mod.setPart p { s.mod.part p with ucode := im }).set F.PART_STAT_ucode_ver p im.ver).parkEnd p ST_OK).resume
          p 4 0).settle) ∧
      exec (.ucodeParkTimeout p) s = .next (s.leave (s.mod.parkEnd p ST_BUSY).settle))

/-! ### Counters, trace, watch, global stop -/

/-- The end of a counter window writes its snapshot where windows are enabled and takes up the configuration written (R400,
R401); marks and flushes go to the trace buffers (R403, R405); an unanswered remote watch copy is skipped (R411). -/
def Obligations.ObservationCommands : Prop :=
  ∀ s : State,
    (s.mod.works = true →
      let m := if s.mod.winField F.CNT_WIN_CFG_enable = 1 then s.mod.winShot else s.mod
      exec .counterWindowEnd s = .next (s.leave
        ({ m with winCfg := BitVec.ofNat 64 (m.regAt R.CNT_WIN_CFG.base R.CNT_WIN_CFG.reset) }).settle)) ∧
    (s.mod.hostOpen Blk.TRC = true →
      (∀ v : W64, exec (.trcMark v) s = .next (s.leave (s.mod.trace 19 0x0C 0xFF 0 0xFFFF v.toNat).settle)) ∧
      (∀ b : BitVec 17, exec (.trcFlush b) s = .next (s.leave (s.mod.each (bitList 17 b.toNat) Mod.traceFlush).settle))) ∧
    (∀ b : Fin 17, s.mod.works = true → s.mod.on F.TRC_BUF_stream_en b = true →
      exec (.traceIdleFlush b) s = .next (s.leave (s.mod.traceFlush b).settle)) ∧
    (∀ (id : Nat) (w : WatchWait), s.mod.works = true → s.mod.watchWaits.find? (·.id == id) = some w →
      exec (.watchAckTimeout id) s = .next (s.leave
        (({ s.mod with watchWaits := s.mod.watchWaits.filter (·.id != id) }).watchSkip w.ctx w.entry w.layer).settle))

/-- `TIME_STOP_CTL.arm` arms a stop at `TIME_STOP_AT`, or 1 microsecond after the write where that comes later, and then `late` is set
when it is taken; a second arm is ignored and records `ST_BUSY`; `cancel` disarms a stop not yet in force (R412, R413). -/
def Obligations.StopArms : Prop :=
  ∀ s : State,
    (s.mod.hostOpen Blk.TIME = true →
      (s.mod.get F.TIME_STOP_STAT_state = 0 →
        exec .stopArm s = .next (s.leave ({ (s.mod.set F.TIME_STOP_STAT_state 0 1) with
          stop := { s.mod.stop with at_ := max (s.mod.get F.TIME_STOP_AT_at) (s.mod.time + 1000),
                                    late := decide (s.mod.get F.TIME_STOP_AT_at < s.mod.time + 1000) } }).settle)) ∧
      (s.mod.get F.TIME_STOP_STAT_state ≠ 0 →
        exec .stopArm s = .next (s.leave (s.mod.refuse ST_BUSY Blk.TIME).settle)) ∧
      (s.mod.get F.TIME_STOP_STAT_state = 1 →
        exec .stopCancel s = .next (s.leave (s.mod.set F.TIME_STOP_STAT_state 0 0).settle)) ∧
      (s.mod.get F.TIME_STOP_STAT_state ≠ 1 → exec .stopCancel s = .next (s.leave s.mod.settle))) ∧
    (s.mod.powered = true → s.mod.get F.TIME_STOP_STAT_state = 1 →
      let m := (s.mod.set F.TIME_STOP_STAT_state 0 2).set F.TIME_STOP_TAKEN_taken 0 s.mod.stop.at_
      exec .globalStopTake s = .next (s.leave (m.set F.TIME_STOP_STAT_late 0 (b2n s.mod.stop.late)).settle))

/-- A release names the time 2 microseconds on, at which every stopped domain resumes, with its trace records, its deferred notices, the
stack faults found meanwhile and the NAKs held back (R414, R416). -/
def Obligations.StopReleases : Prop :=
  ∀ s : State,
    (s.mod.hostOpen Blk.TIME = true → s.mod.get F.TIME_STOP_STAT_state = 2 →
      exec .stopRelease s = .next (s.leave ((s.mod.set F.TIME_STOP_STAT_state 0 3).set F.TIME_STOP_RESUMED_resumed 0
        (s.mod.time + 2000)).settle)) ∧
    (s.mod.powered = true → s.mod.get F.TIME_STOP_STAT_state = 3 →
      let m := s.mod.set F.TIME_STOP_STAT_state 0 0
      let ns := m.get F.TIME_STOP_RESUMED_resumed - m.get F.TIME_STOP_TAKEN_taken
      let m := m.each ((List.range 16).filter m.partReady) fun m p => (m.cnt (8 * p + 3) ns).resume p 3 ns
      let m1 := m.stop.lost.foldl (fun m p => if m.partUp p then m.stackFault p else m)
        (m.fab.deferred.foldl
          (fun m p => { m.flood 0x02 p.payload with
            fab := { (m.flood 0x02 p.payload).fab with loop := (m.flood 0x02 p.payload).fab.loop ++ [p] } })
          { m with stop := { m.stop with lost := [] }, fab := { m.fab with deferred := [] } })
      exec .globalStopResume s = .next (s.leave
        (m1.each ((List.range 8).filter fun n => (m1.port n).nakWait && m1.carries0 n) Mod.sendNak).settle))

/-! ### Bring-up, images, security, PCIe, answers to the outside -/

/-- Power-up begins a whole-module reset; confirmed flow takes the module through the Armature's part of bring-up, into recovery mode
without a valid header and firmware image; ready brings the partitions up and fires vector 1 (R417-R427, R470). -/
def Obligations.BringUp : Prop :=
  ∀ s : State,
    ((s.mod.pwr.rails = .off ∨ s.mod.pwr.rails = .waitFlow) →
      exec .powerOn s = .next (s.leave (s.mod.wholeReset 0 true))) ∧
    (s.mod.pwr.rails = .waitFlow →
      let m := ({ s.mod with pwr := { s.mod.pwr with rails := .on, noFlowSeen := false } }).identify
      let fw := m.flashImage 0x10000 (2 ^ 25)
      exec .flowConfirmed s = .next (s.leave
        (if leNat (flashRead m.flash 0 4) = 0x9E17B007 ∧ m.verified fw [1] (m.get F.SEC_STAT_min_svn) = ST_OK then
          m.armatureUp fw.2 (m.flashImage 0x2010000 (2 ^ 20))
         else m.enterRecovery))) ∧
    (∀ failed : BitVec 16, s.mod.powered = true → s.mod.get F.BOOT_STAT_step = 5 → s.mod.on F.BOOT_STAT_ready = false →
      let m := s.mod.zeroHbm.seedsNew
      let m := m.each ((List.range 16).filter fun p => failed.toNat.testBit p) Mod.partFailed
      let m := m.each ((List.range 16).filter fun p => m.on F.PART_CTL_enable p && !failed.toNat.testBit p) Mod.partRun
      let m := m.set F.CLK_STAT_pclk_lock 0 ((((List.range 16).filter fun p => m.on F.PART_CTL_enable p).map (2 ^ ·)).sum)
      let m := ((m.set F.BOOT_STAT_ready 0 1).set F.BOOT_STAT_step 0 10).sidesGate.clocks.msix 0 1
      exec (.bringupReady failed) s = .next (s.leave
        (if (List.range 8).all fun n => m.get F.LNK_STAT_state n == 0 then m.takeRoot else m).settle))

/-- `BOOT_CMD` (R428, R439-R445): an operation whose image passes its checks has its effect and ends with `ST_OK`, one whose image
does not ends with the status of the check and no other effect but the accesses that read it; without presence none writes flash. In recovery mode operation 5
runs the staged firmware with the staged or stored configuration, and operation 6 stages a configuration (R428). -/
def Obligations.BootOperations : Prop :=
  (∀ s : State, s.mod.hostOpen Blk.BOOT = true → s.mod.stagingBusy = false →
     (∀ target persist : Bool,
       let m := s.mod.bootReach
       let x := m.bootObject
       let st := m.verified x [4, 5, 6] (m.volatileLeast (Ih.kind x.2) target)
       let b := m.boot
       exec (.bootVolatileUpdate target persist) s = .next (s.leave
         (if st ≠ ST_OK then m.bootEnd st
          else if Ih.kind x.2 = 4 then ({ m with boot := { b with armature := imageOf x.2 } }).bootEnd ST_OK
          else if Ih.kind x.2 = 5 then
            ({ m with boot := if target then { b with link1 := imageOf x.2 } else { b with link0 := imageOf x.2 } }).bootEnd ST_OK
          else if persist = true ∧ m.present = true then m.calWrite.bootEnd ST_OK
          else m.bootEnd ST_OK).settle)) ∧
     (s.mod.present = true →
       let m := s.mod.bootReach
       exec .bootWriteFirmware s = .next (s.leave (match m.bootImage [1] (m.get F.SEC_STAT_min_svn) (2 ^ 25) with
         | .ok l => (m.flashPut 0x10000 (2 ^ 25) l).bootEnd ST_OK
         | .error st => m.bootEnd st).settle) ∧
       exec .bootWriteConfig s = .next (s.leave (match m.bootImage [2] 0 (2 ^ 20) with
         | .ok l => (m.flashPut 0x2010000 (2 ^ 20) l).bootEnd ST_OK
         | .error st => m.bootEnd st).settle) ∧
       exec .bootEraseLog s = .next (s.leave (({ s.mod with
         flash := s.mod.flash.clear (evSector 16) (evSector 256),
         boot := { s.mod.boot with evRoll := 0 } }).bootEnd ST_OK).settle)) ∧
     (s.mod.present = false →
       exec .bootWriteFirmware s = .next (s.leave (s.mod.bootEnd ST_NO_PRESENCE).settle) ∧
       exec .bootWriteConfig s = .next (s.leave (s.mod.bootEnd ST_NO_PRESENCE).settle) ∧
       exec .bootEraseLog s = .next (s.leave (s.mod.bootEnd ST_NO_PRESENCE).settle)) ∧
     (∀ off : BitVec 27, s.mod.inRecovery = false →
       let n := s.mod.get F.BOOT_LEN_bytes
       let dst := s.mod.get F.BOOT_IMG_ADDR_addr * 1024
       (off.toNat * 4096 + n ≤ 2 ^ 27 → dst + n ≤ 2 ^ 40 →
         let l := flashRead s.mod.flash (off.toNat * 4096) n
         exec (.bootCopyFlash off) s = .next (s.leave
           ((s.mod.each (List.range (n / 4096)) fun m k => m.wrInt (dst + 4096 * k) (slice l (4096 * k) 4096)).bootEnd ST_OK).settle)) ∧
       (2 ^ 27 < off.toNat * 4096 + n →
         exec (.bootCopyFlash off) s = .next (s.leave (s.mod.bootEnd ST_BAD_ACCESS).settle)))) ∧
  (∀ s : State, s.mod.powered = true → s.mod.pcie.link = true → s.mod.inRecovery = true → s.mod.stagingBusy = false →
     let m := s.mod.bootReach
     let cfg := match m.boot.recoveryCfg with | some c => (ST_OK, c) | none => m.flashImage 0x2010000 (2 ^ 20)
     exec .bootRecoveryRun s = .next (s.leave (match m.bootImage [1] (m.get F.SEC_STAT_min_svn) (2 ^ 25) with
       | .ok l => (({ m with pcie := { m.pcie with bar4Log2 := 34 } }).armatureUp l cfg).bootEnd ST_OK
       | .error st => m.bootEnd st)) ∧
     exec .bootRecoveryConfig s = .next (s.leave (match m.bootImage [2] 0 (2 ^ 25) with
       | .ok l => ({ m with boot := { m.boot with recoveryCfg := some l } }).bootEnd ST_OK
       | .error st => m.bootEnd st)))

/-- `SEC_CMD` (R437-R440, R447): each operation whose conditions hold and whose image passes its checks has its effect and ends with
`ST_OK` and vector 1; otherwise it ends with the status of what failed, and no other effect but the accesses that read its image. -/
def Obligations.SecurityCommands : Prop :=
  ∀ s : State, s.mod.hostOpen Blk.SEC = true → s.mod.stagingBusy = false →
    let fin (st : Status) (m : Mod) : State := s.leave ((m.set F.SEC_CMD_status 0 st).msix 0 1).settle
    let m := s.mod.bootReach
    (s.mod.identityRefusal false = ST_OK →
      exec .secProvisionOwner s = .next (match m.bootImage [8] 0 (2 ^ 25) true with
        | .ok l => fin ST_OK (m.setOwner (some (keyHash (slice l 0x400 384))))
        | .error st => fin st m)) ∧
    (s.mod.identityRefusal false ≠ ST_OK → exec .secProvisionOwner s = .next (fin (s.mod.identityRefusal false) s.mod)) ∧
    (s.mod.identityRefusal true = ST_OK →
      exec .secReplaceOwner s = .next (match m.bootImage [8] 0 (2 ^ 25) with
        | .ok l =>
          if (l.drop 0x400).all (· == 0) then fin ST_OK (m.setOwner none)
          else if (l.drop 0x400).length ≠ 384 then fin ST_SIG_INVALID m
          else fin ST_OK (m.setOwner (some (keyHash (l.drop 0x400))))
        | .error st => fin st m) ∧
      exec .secWriteChain s = .next (match m.bootImage [9] 0 (2 ^ 16) with
        | .ok l => fin ST_OK ((m.flashPut 0x2910000 (2 ^ 16) l).evPermanent ST_OK)
        | .error st => fin st m)) ∧
    (s.mod.on F.SEC_STAT_perm_full = false → s.mod.present = true →
      exec .secDebugUnlock s = .next (match m.bootImage [7] 0 (2 ^ 25) with
        | .ok l =>
          let scope := leNat (slice (l.drop 0x400) 24 4)
          if m.tokenFits (l.drop 0x400) then
            fin ST_OK ((({ m with boot := { m.boot with debug := scope } }).set
              F.SEC_STAT_debug_state 0 scope).newNonce.evPermanent ST_OK)
          else fin ST_UNLOCK_INVALID m
        | .error st => fin (if st = ST_SIG_INVALID ∨ st = ST_HASH_MISMATCH then ST_UNLOCK_INVALID else st) m)) ∧
    exec .secDebugRelock s = .next (fin ST_OK (({ s.mod with boot := { s.mod.boot with debug := 0 } }).set
      F.SEC_STAT_debug_state 0 0).newNonce) ∧
    (∀ im, s.mod.present = true → s.mod.boot.firmware = some im →
      exec .secRaiseMinSvn s
        = .next (fin ST_OK (s.mod.set F.SEC_STAT_min_svn 0 (max im.svn (s.mod.get F.SEC_STAT_min_svn)))))

/-- Presence, the seal loop and the calibration record (R423, R437, R438): the window opens for 600 s on an assertion after a high
level and closes with the level or the time; an opened seal is counted and logged for good. -/
def Obligations.PresenceAndSeal : Prop :=
  ∀ s : State,
    (s.mod.standby = true → s.mod.boot.presenceArmed = true →
      let m := { s.mod with boot := { s.mod.boot with presenceArmed := false, presenceOpen := some s.mod.time } }
      exec .presenceAssert s
        = .next (s.leave (((m.set F.SEC_STAT_presence 0 1).set F.SEC_STAT_window_s 0 600).msix 0 1))) ∧
    exec .presenceExpiry s = .next (s.leave s.mod.windowClose) ∧
    exec .presenceRelease s = .next (s.leave
      { s.mod.windowClose with boot := { s.mod.windowClose.boot with presenceArmed := true } }) ∧
    (∀ intact : Bool, s.mod.standby = true →
      let m : Mod := { (s.mod.set F.SEC_STAT_seal_intact 0 (b2n intact)) with
        boot := { s.mod.boot with sealWas := intact } }
      exec (.sealCheck intact) s = .next (s.leave
        (if s.mod.boot.sealWas && !intact then
          ((m.evPermanent ST_SEAL_OPEN).bump F.SEC_STAT_seal_opens 0 1).set F.SEC_STAT_seal_opened 0 1
         else m))) ∧
    (s.mod.powered = true → s.mod.boot.calChanged = true → s.mod.calDue = true →
      exec .calibrationRecordWrite s = .next (s.leave s.mod.calWrite.settle))

/-- PCIe events (R229, R429-R433, R446): the fundamental reset and a lost link take the link down with what it carries; a link comes up
with free generation, width, mode and configuration; function resets tear down their contexts, and PF0's
re-initialises its configuration space (R20); virtual functions are enabled; an unmasked vector
that was pending fires; the boundary instruction takes the balls.
While powered the boundary instruction takes every port out of service, with a notice for each that ran, and takes the PCIe
link down (R446). -/
def Obligations.PcieLinkEvents : Prop :=
  (∀ s : State,
     (s.mod.powered = true → exec .perstAssert s = .next (s.leave ({ s.mod.pcieDown with
       pcie := { perst := true, bar4Log2 := if s.mod.pcieDown.inRecovery then 25 else 34,
                 nextTag := s.mod.pcieDown.pcie.nextTag } }).settle)) ∧
     exec .perstDeassert s = .next (s.leave { s.mod with pcie := { s.mod.pcie with perst := false } }) ∧
     (s.mod.powered = true → s.mod.pcie.link = true → exec .pcieLinkDown s = .next (s.leave s.mod.pcieDown.settle)) ∧
     (s.mod.powered = true → s.mod.pcie.perst = false → s.mod.pcie.link = false → s.mod.boot.jtag = false →
       ∃ (cfg : PcieSetup) (gen width flit : Nat), 1 ≤ gen ∧ gen ≤ 7 ∧ width ∈ [1, 2, 4, 8, 16] ∧
         let m := (({ s.mod with freeN := s.mod.freeN + 1 }).set F.PCI_LINK_gen 0 gen).set F.PCI_LINK_width 0 width
         let m := m.set F.PCI_LINK_flit 0 flit
         let fns (l : List (Fin 65)) : Tab Bool := l.foldl (fun t f => Tab.set false t f.val true) []
         exec .pcieLinkUp s = .next (s.leave ({ m with pcie := { m.pcie with
           link := true, busMasterOff := fns cfg.noMaster, relaxed := fns cfg.relaxed,
           maxPayload := min 512 (128 * 2 ^ min cfg.payload 5), maxRead := min 4096 (128 * 2 ^ min cfg.readReq 5) } }).settle)) ∧
     (∀ v : Fin 64, s.mod.powered = true → s.mod.vfHere v = true →
       let m := s.mod.each (s.mod.vfContexts (some v.val)) Mod.ctxTeardown
       exec (.flrVf v) s = .next (s.leave ({ m with pcie := m.pcie.clearMsix (v + 1) }).settle)) ∧
     (s.mod.powered = true → s.mod.pcie.link = true →
       let m := { s.mod with pcie := { (s.mod.pcie.clearMsix 0) with
         vfEnable := false, numVfs := 0, bar4Log2 := if s.mod.inRecovery then 25 else 34, maxPayload := 512, maxRead := 512,
         busMasterOff := Tab.set false s.mod.pcie.busMasterOff 0 false, relaxed := Tab.set false s.mod.pcie.relaxed 0 false } }
       exec .flrPf0 s = .next (s.leave
         ((m.each ((List.range 64).filter fun c => m.ctxState c == 1) Mod.ctxTeardown).set F.FLT_IRQ_EN_en 0 0).settle)) ∧
     (∀ (on : Bool) (num : BitVec 16), s.mod.powered = true → s.mod.pcie.link = true → s.mod.inRecovery = false →
       num.toNat ≤ 64 →
       exec (.vfEnable on num) s = .next (s.leave ({ s.mod with pcie := { s.mod.pcie with
         vfEnable := on, numVfs := if on then num.toNat else 0 } }).settle)) ∧
     (∀ vec : Nat, s.mod.powered = true → s.mod.pcie.link = true → vec < vectors 0 →
       let m := { s.mod with pcie := { s.mod.pcie with unmasked := Tab.set false s.mod.pcie.unmasked vec true,
                                                       msixPend := Tab.set false s.mod.pcie.msixPend vec false } }
       exec (.msixUnmask none vec) s = .next (s.leave
         (if Tab.get false s.mod.pcie.msixPend vec then m.emit (.msix 0 vec) else m).settle)) ∧
     (s.mod.powered = false → exec .jtagBoundarySelect s
       = .next (s.leave ({ s.mod with boot := { s.mod.boot with jtag := true } }).settle))) ∧
  (∀ s : State, s.mod.powered = true →
     let m := { s.mod with boot := { s.mod.boot with jtag := true } }
     let live := (List.range 8).filter m.carries0
     let m1 := m.each ((List.range 8).filter fun n => m.get F.LNK_STAT_state n != 0) fun m n => m.portOff n 5
     let m2 := m1.each live fun m n => m.noticeOf n 5 0
     exec .jtagBoundarySelect s = .next (s.leave (if m2.pcie.link then m2.pcieDown else m2).settle))

/-- Attestation (R441-R443): a request in its order is answered with its response and changes nothing else but what was agreed and
the free values drawn; an unsupported one with an error. Message layouts are the model's (log entry 70). -/
def Obligations.Attestation : Prop :=
  ∀ (s : State) (ch : Chan), s.mod.hears ch = true →
    exec (.getVersion ch) s = .next (s.leave ((s.mod.setSpdm ch { version := true }).reply ch 0x04 0 0
      (leBytes 1 0 ++ leBytes 1 2 ++ leBytes 2 0x1200 ++ leBytes 2 0x1300))) ∧
    (∀ flags, (s.mod.spdmOf ch).version = true →
      let x := s.mod.drawBytes 9
      exec (.getCapabilities ch flags) s = .next (s.leave
        ((x.2.setSpdm ch { x.2.spdmOf ch with caps := true }).reply ch 0x61 0 0
          (leBytes 1 0 ++ x.1.take 1 ++ leBytes 2 0 ++ leBytes 4 0x16 ++ x.1.drop 1)))) ∧
    (∀ (spec : Byte) (asym hash : W32), (s.mod.spdmOf ch).caps = true →
      (spec.toNat.testBit 0 && asym.toNat.testBit 3 && hash.toNat.testBit 0) = true →
      exec (.negotiateAlgorithms ch spec asym hash) s = .next (s.leave
        ((s.mod.setSpdm ch { s.mod.spdmOf ch with algs := true }).reply ch 0x63 0 0
          (leBytes 2 36 ++ leBytes 1 1 ++ leBytes 1 0 ++ leBytes 4 2 ++ leBytes 4 8 ++ leBytes 4 1 ++ List.replicate 16 0)))) ∧
    ((s.mod.spdmOf ch).algs = true →
      exec (.getDigests ch) s = .next (s.leave (s.mod.reply ch 0x01 0 s.mod.slotMask
        (((List.range 2).filter s.mod.slotMask.testBit).flatMap fun k => sha256 (s.mod.chain k)))) ∧
      (∀ slot off len, s.mod.slotMask.testBit slot = true → off < (s.mod.chain slot).length →
        let l := slice (s.mod.chain slot) off (min len ((s.mod.chain slot).length - off))
        exec (.getCertificate ch slot off len) s = .next (s.leave (s.mod.reply ch 0x02 slot 0
          (leBytes 2 l.length ++ leBytes 2 ((s.mod.chain slot).length - off - l.length) ++ l)))) ∧
      (∀ slot (what : Byte) (nonce : List Byte), s.mod.slotMask.testBit slot = true →
        let x := s.mod.drawBytes 32
        let blocks := if what.toNat = 1 then [1] else (List.range 23).map (· + 1)
        let summary := if what.toNat = 0 then [] else sha256 (blocks.flatMap x.2.measureBlock)
        let body := sha256 (x.2.chain slot) ++ x.1 ++ summary ++ leBytes 2 0
        exec (.challenge ch slot what nonce) s = .next (s.leave
          (x.2.reply ch 0x03 slot x.2.slotMask (body ++ Config.sign (nonce ++ body))))) ∧
      (∀ slot, s.mod.slotMask.testBit slot = false →
        (∀ off len, exec (.getCertificate ch slot off len) s = .next (s.leave (s.mod.spdmError ch 1 0))) ∧
        (∀ what nonce, exec (.challenge ch slot what nonce) s = .next (s.leave (s.mod.spdmError ch 1 0)))) ∧
      (∀ (attr op : Byte) (nonce : List Byte) slot, op.toNat ≤ 23 ∨ op.toNat = 0xFF →
        let x := s.mod.drawBytes 32
        let ks := if op.toNat = 0 then [] else if op.toNat = 0xFF then (List.range 23).map (· + 1) else [op.toNat]
        let rcd := ks.flatMap s.mod.measureBlock
        let body := leBytes 1 ks.length ++ leBytes 3 rcd.length ++ rcd ++ x.1 ++ leBytes 2 0
        exec (.getMeasurements ch attr op nonce slot) s = .next (s.leave (x.2.reply ch 0x60 (if op.toNat = 0 then 23 else 0) slot
          (body ++ if attr.toNat % 2 = 1 then Config.sign (nonce ++ body) else []))))) ∧
    ((s.mod.spdmOf ch).version = false → ∀ flags,
      exec (.getCapabilities ch flags) s = .next (s.leave (s.mod.spdmError ch 4 0))) ∧
    ((s.mod.spdmOf ch).algs = false →
      exec (.getDigests ch) s = .next (s.leave (s.mod.spdmError ch 4 0))) ∧
    (∀ code : Byte, exec (.spdmUnsupportedRequest ch code) s = .next (s.leave (s.mod.spdmError ch 7 code.toNat)))

/-- Answers to the outside (R435, R441): each is one message, and the module that answers changes in nothing else; an endpoint ID is
stored. -/
def Obligations.SidebandAnswers : Prop :=
  ∀ s : State,
    (s.mod.hears .doe = true → ∀ index : Byte,
      exec (.doeDiscovery index) s = .next (s.leave (s.mod.emit (.doe
        (if 1 < index.toNat then leBytes 4 0xFFFF
         else leBytes 2 1 ++ leBytes 1 index.toNat ++ leBytes 1 (if index.toNat = 0 then 1 else 0)))))) ∧
    (s.mod.serves = true →
      (∀ e : Byte, exec (.mctpEndpointIdAssign e) s
        = .next (s.leave { s.mod with boot := { s.mod.boot with eid := e } })) ∧
      (∃ l, exec .pldmSensorRead s = .next (s.leave (s.mod.emit (.mctp 1 l))) ∧ l.length = 4 * 29) ∧
      (∀ index, index < 1024 → ∃ l, exec (.vendorReadFaultLog index) s = .next (s.leave (s.mod.emit (.mctp 0x7E l))) ∧
        l.length = 32 * ((s.mod.get F.FLT_LOG_PTR_head + 1024 - index) % 1024)) ∧
      (∀ sector count, exec (.vendorReadEventLog sector count) s = .next (s.leave (s.mod.emit (.mctp 0x7E
        (flashRead s.mod.flash (evSector sector) (0x10000 * min count (256 - sector))))))) ∧
      (∀ page : BitVec 8, exec (.vendorReadDump page) s = .next (s.leave (s.mod.emit (.mctp 0x7E
        ((List.range 0x8000).map fun j => Tab.get 0 s.mod.dump (0x8000 * page.toNat + j)))))) ∧
      (∃ l, exec .vendorReadStatus s = .next (s.leave (s.mod.emit (.mctp 0x7E l))) ∧ l.length = 20))

/-! ### Power, cooling, clocks -/

/-- Samples (R456, R466, R467, R470, R471): an input sample updates the readings, and an overcurrent, the tenth mean above the limit or
the hundredth below it moves the power's clock target; die temperatures below the trip set each die's level, and one at the trip
takes the module down; a coolant sample updates the readings, and the second low flow takes the module down. -/
def Obligations.Samples : Prop :=
  ∀ s : State,
    (∀ v a : BitVec 16, s.mod.powered = true →
      let ss := (v.toNat * a.toNat :: s.mod.pwr.samples).take 100
      let lim := s.mod.effLimit v.toNat
      let hi := if lim * 10000 * ss.length < ss.sum then s.mod.pwr.above + 1 else 0
      let lo := if ss.sum * 100 < lim * 10000 * ss.length * 98 then s.mod.pwr.below + 1 else 0
      let m := { s.mod with pwr := { s.mod.pwr with samples := ss, above := hi % 10, below := lo % 100 } }
      let m := (m.set F.PWR_IN_volts_10mv 0 v.toNat).set F.PWR_IN_amps_10ma 0 a.toNat
      let m := (m.set F.PWR_IN_watts 0 (ss.sum / (10000 * ss.length))).set F.PWR_IN_eff_limit 0 lim
      let t := m.get F.CLK_PCLK_power_mhz 0
      exec (.powerSample v a) s = .next (s.leave
        (if 5500 < a.toNat then m.powerTarget 300
         else if hi = 10 then m.powerTarget (max 300 (t - 25))
         else if lo = 100 then m.powerTarget (min 850 (t + 25)) else m).settle)) ∧
    (∀ l : List (BitVec 8), (s.mod.alive || s.mod.pwr.rails == .brownout) = true → l.length = 6 →
      (∀ t ∈ l, t.toNat < 115) →
      exec (.dieTempSample l) s = .next (s.leave
        (((List.range 6).zip (l.map (·.toNat))).foldl (fun m e => m.dieTemp e.1 e.2) s.mod).settle)) ∧
    (∀ l : List (BitVec 8), (s.mod.alive || s.mod.pwr.rails == .brownout) = true → l.length = 6 →
      (∃ t ∈ l, 115 ≤ t.toNat) → exec (.dieTempSample l) s = .next (s.leave s.mod.trip.settle)) ∧
    (∀ (flow : BitVec 16) (inlet outlet : BitVec 8), s.mod.pwr.rails = .on →
      let m := { s.mod with pwr := { s.mod.pwr with
        cool := ((flow.toNat, inlet.toNat) :: s.mod.pwr.cool).take 10, lowFlow := decide (flow.toNat < 1000) } }
      let m := (m.set F.PWR_COOL_flow_ml 0 (m.meanFlow.getD 0)).set F.PWR_COOL_inlet_c 0 inlet.toNat
      let m := m.set F.PWR_COOL_outlet_c 0 outlet.toNat
      exec (.coolantSample flow inlet outlet) s = .next (s.leave
        (if flow.toNat < 1000 ∧ s.mod.pwr.lowFlow = true then (m.retain ST_NO_FLOW).railsOff .noFlow else m).settle))

/-- What takes the rails down (R452, R453, R466, R468, Table 15.2): an overvoltage is recorded and latched; a brown-out and a lost
reference clock leave a retained record; the return of the input restarts the module; the loss of the always-on supply ends a
latch and the brown-out's record. While the rails are down `PWR_OK` is low. -/
def Obligations.RailEvents : Prop :=
  ∀ s : State,
    (s.mod.alive = true →
      exec .inputOvervoltage s = .next (s.leave
        ((s.mod.log { st := ST_INPUT_RANGE, cls := .fatal, block := Blk.PWR }).railsOff .overvoltage)) ∧
      exec .brownout s = .next (s.leave ((s.mod.retain ST_BROWNOUT).railsOff .brownout)) ∧
      exec .refClockLoss s
        = .next (s.leave (((s.mod.set F.CLK_STAT_ref_ok 0 0).retain ST_MODULE_FAILED).railsOff .refLoss))) ∧
    (s.mod.pwr.rails = .brownout → exec .brownoutReturn s = .next (s.leave (s.mod.wholeReset 2 true))) ∧
    exec .alwaysOnPowerLoss s = .next (s.leave { (s.mod.railsOff .off) with
      pwr := { rails := .off, retained := s.mod.pwr.retained.filter fun w => retainedStatus w != ST_BROWNOUT } }) ∧
    (∀ m : Mod, ∀ r : Rails, r ≠ .on → (m.railsOff r).pins.pwrOkLow = true)

/-- Power states and gates (R460, R462): a target asks for its transition, or waits for the one under way; the transition's end puts
the state in force, after an exit from MS3 with its stacks written anew (R461); an idle partition's clock and then its power are gated, and a wake undoes it. -/
def Obligations.PowerStates : Prop :=
  ∀ s : State,
    (∀ t : BitVec 2, s.mod.hostOpen Blk.PWR = true →
      let m := s.mod.set F.PWR_MS_CTL_target 0 t.toNat
      exec (.pwrMsTarget t) s = .next (s.leave
        (if m.on F.PWR_MS_CTL_busy then m.set F.PWR_MS_CTL_pending 0 1 else m.msBegin t.toNat).settle)) ∧
    (s.mod.powered = true → s.mod.on F.PWR_MS_CTL_busy = true →
      let m := (s.mod.set F.PWR_MS_CTL_state 0 s.mod.pwr.msTo).set F.PWR_MS_CTL_busy 0 0
      let m := if s.mod.get F.PWR_MS_CTL_state = 3 ∧ s.mod.pwr.msTo ≠ 3 then m.ms3Exit else m
      let m := (if s.mod.pwr.msTo = 0 then m.msLeave else m.msEnter s.mod.pwr.msTo).clocks
      exec .msTransitionDone s = .next (s.leave
        (if m.on F.PWR_MS_CTL_pending then (m.set F.PWR_MS_CTL_pending 0 0).msBegin (m.get F.PWR_MS_CTL_target)
         else m).settle)) ∧
    (∀ p : Fin 16, s.mod.works = true → s.mod.get F.PWR_MS_CTL_state = 0 →
      (s.mod.on F.PWR_IDLE_CFG_gate_en = true → s.mod.partReady p = true → s.mod.partIdle p = true →
        let m := s.mod.set F.PWR_PART_STAT_gate p 1
        exec (.partClockGate p) s = .next (s.leave
          ((m.setPart p { m.part p with stopTime := s.mod.time }).clockSet p).settle)) ∧
      (s.mod.on F.PWR_IDLE_CFG_gate_en = true → s.mod.get F.PWR_IDLE_CFG_pg_ms ≠ 0 → s.mod.get F.PART_STAT_state p = 2 →
        s.mod.get F.PWR_PART_STAT_gate p = 1 →
        exec (.partPowerGate p) s = .next (s.leave (s.mod.set F.PWR_PART_STAT_gate p 2).settle)) ∧
      (s.mod.get F.PWR_PART_STAT_gate p ≠ 0 → s.mod.get F.PART_STAT_state p = 2 → s.mod.failed = false →
        exec (.partWake p) s = .next (s.leave (s.mod.ungate p (s.mod.get F.PWR_PART_STAT_gate p - 1)).settle)))

/-- A register write (R7, R8, R11, R12): in BAR0 and in a doorbell page an access of 4 or 8 bytes, aligned to its size, reaches what
lies there, and any other is discarded and recorded with `ST_BAD_ACCESS`. A write to a register of a partition that does not answer
is recorded with `ST_NO_RESPONSE` (R371). A register without an effect of its own takes the new value
unless a rule refuses it, and of the new value each writable bit that the access covers is the written one, each write-1-to-clear
bit covered and written 1 is 0, and every other bit is the old one. -/
def Obligations.RegisterWrites : Prop :=
  (∀ (s : State) (off size : Nat) (v : W64), off < 2 ^ 26 → s.mod.hostOpen (blockOf off) = true →
    (accessOk off size = true →
      exec (.registerWrite (.bar0 off) size v) s = .next (s.leave (s.mod.writeBar0 off size v.toNat).settle)) ∧
    (accessOk off size = false →
      exec (.registerWrite (.bar0 off) size v) s = .next (s.leave (s.mod.refuse ST_BAD_ACCESS (blockOf off) off)))) ∧
  (∀ (s : State) (d : Door) (i off size : Nat) (v : W64), off < 4096 → s.mod.doorOpen d i = true →
    (accessOk off size = true →
      exec (.registerWrite (.door d off) size v) s = .next (s.leave (s.mod.writeDoor i off size v.toNat).settle)) ∧
    (accessOk off size = false →
      exec (.registerWrite (.door d off) size v) s = .next (s.leave (s.mod.refuse ST_BAD_ACCESS Blk.Q off).settle))) ∧
  (∀ (s : State) (off i n : Nat) (v : W64) (r : Reg), off < 2 ^ 26 → s.mod.hostOpen (blockOf off) = true →
    regFind off = some (r, i, n) → accessOk off r.bytes = true →
    let mask := 2 ^ (8 * r.bytes) - 1
    let w := v.toNat % 2 ^ (8 * r.bytes)
    (s.mod.mute r i = true →
      exec (.registerWrite (.bar0 off) r.bytes v) s = .next (s.leave (s.mod.noResponse off).settle)) ∧
    (s.mod.mute r i = false → s.mod.regActs0 r off i mask w = none → s.mod.regActs1 r off i mask w = none →
    let old := s.mod.regAt off r.reset
    let new := r.next 0 mask old w
    exec (.registerWrite (.bar0 off) r.bytes v) s = .next (s.leave
      (if s.mod.writeRefusal r i mask old new = ST_OK then s.mod.setRegAt off r.reset new
       else s.mod.refuseWrite (s.mod.writeRefusal r i mask old new) off r.base i).settle))) ∧
  (∀ (r : Reg) (mask old v b : Nat), r.rw &&& r.w1c = 0 →
    (r.next 0 mask old v).testBit b
      = (if r.rw.testBit b && mask.testBit b then v.testBit b
         else old.testBit b && !(r.w1c.testBit b && mask.testBit b && v.testBit b)))
end

