-- ==== Sys2Proof/Laws/Bits.lean ====
section
/-! SUPPORT. Laws of bit fields and of byte order. -/

namespace Sys2Proof.Machine

theorem bits_lt (x lo len : Nat) : bits x lo len < 2 ^ len := Nat.mod_lt _ (Nat.two_pow_pos _)

/-- Bit i of a field. -/
theorem testBit_bits (x lo len i : Nat) : (bits x lo len).testBit i = (decide (i < len) && x.testBit (lo + i)) := by
  simp [bits, Nat.testBit_mod_two_pow, Nat.testBit_shiftRight]

/-- Bit i of a word after a field is put into it. -/
theorem testBit_setBits (x lo len v i : Nat) :
    (setBits x lo len v).testBit i
      = if i < lo then x.testBit i else if i < lo + len then v.testBit (i - lo) else x.testBit i := by
  have h1 : x % 2 ^ lo < 2 ^ lo := Nat.mod_lt _ (Nat.two_pow_pos _)
  have h2 : v % 2 ^ len < 2 ^ len := Nat.mod_lt _ (Nat.two_pow_pos _)
  have e1 : x % 2 ^ lo + v % 2 ^ len * 2 ^ lo = (v % 2 ^ len) <<< lo ||| x % 2 ^ lo := by
    rw [← Nat.shiftLeft_add_eq_or_of_lt h1, Nat.shiftLeft_eq, Nat.add_comm]
  have h3 : x % 2 ^ lo + v % 2 ^ len * 2 ^ lo < 2 ^ (lo + len) := by
    rw [Nat.pow_add]
    have : (v % 2 ^ len + 1) * 2 ^ lo ≤ 2 ^ len * 2 ^ lo := Nat.mul_le_mul_right _ h2
    rw [Nat.add_mul, Nat.one_mul] at this
    rw [Nat.mul_comm (2 ^ lo)]; omega
  have e2 : setBits x lo len v = (x >>> (lo + len)) <<< (lo + len) ||| (x % 2 ^ lo + v % 2 ^ len * 2 ^ lo) := by
    rw [← Nat.shiftLeft_add_eq_or_of_lt h3, Nat.shiftLeft_eq]; simp only [setBits]; omega
  rw [e2, e1]
  simp only [Nat.testBit_or, Nat.testBit_shiftLeft, Nat.testBit_shiftRight, Nat.testBit_mod_two_pow]
  by_cases ha : i < lo
  · have h4 : ¬ lo + len ≤ i := by omega
    have h5 : ¬ lo ≤ i := by omega
    simp [ha, h4, h5]
  · by_cases hb : i < lo + len
    · have : i - lo < len := by omega
      have : ¬ lo + len ≤ i := by omega
      have : lo ≤ i := by omega
      simp [*]
    · have h4 : ¬ (i - lo < len) := by omega
      have h5 : lo + len + (i - (lo + len)) = i := by omega
      have h6 : lo + len ≤ i := by omega
      simp [ha, hb, h4, h5, h6]

/-- A field reads as what was put into it, also after the word is cut to 64 bits. -/
theorem bits_setBits (x lo len v : Nat) (h : lo + len ≤ 64) :
    bits (setBits x lo len v % 2 ^ 64) lo len = v % 2 ^ len := by
  apply Nat.eq_of_testBit_eq
  intro i
  rw [testBit_bits, Nat.testBit_mod_two_pow, testBit_setBits, Nat.testBit_mod_two_pow]
  by_cases hi : i < len
  · have h1 : lo + i < 64 := by omega
    simp [hi, h1]
  · simp [hi]

/-- A field apart from the one written reads as before. -/
theorem bits_setBits_ne (x lo len v lo2 len2 : Nat) (h : lo2 + len2 ≤ 64) (hd : lo2 + len2 ≤ lo ∨ lo + len ≤ lo2) :
    bits (setBits x lo len v % 2 ^ 64) lo2 len2 = bits x lo2 len2 := by
  apply Nat.eq_of_testBit_eq
  intro i
  rw [testBit_bits, Nat.testBit_mod_two_pow, testBit_setBits, testBit_bits]
  by_cases hi : i < len2
  · have h1 : lo2 + i < 64 := by omega
    rcases hd with hd | hd
    · have : lo2 + i < lo := by omega
      simp [hi, h1, this]
    · have h2 : ¬ (lo2 + i < lo) := by omega
      have h3 : ¬ (lo2 + i < lo + len) := by omega
      simp [hi, h1, h2, h3]
  · simp [hi]

theorem length_leBytes : ∀ n x : Nat, (leBytes n x).length = n
  | 0, _ => rfl
  | n + 1, x => by simp [leBytes, length_leBytes n]

end Sys2Proof.Machine
end

