-- ==== Sys2Proof/Laws/Tab.lean ====
section
/-! SUPPORT. Laws of sparse tables: reading after writing, removing and clearing, whatever the table; and that every operation
keeps the canonical form. -/

namespace Sys2Proof.Machine

section Reads

variable {α : Type} {d : α}

/-- Where a test that holds of every entry of key `j` chooses the entries, key `j` reads as before. -/
theorem Tab.get_filter_of {p : Nat × α → Bool} {j : Nat} (hp : ∀ v, p (j, v) = true) :
    ∀ t : Tab α, Tab.get d (t.filter p) j = Tab.get d t j
  | [] => rfl
  | (k, v) :: t => by
    have ih := Tab.get_filter_of hp t
    by_cases h : j = k
    · subst h; simp [Tab.get, hp]
    · cases hk : p (k, v) <;> simp [Tab.get, hk, h, ih]

/-- Where a test refuses every entry of key `j`, key `j` reads as an unlisted one. -/
theorem Tab.get_filter_none {p : Nat × α → Bool} {j : Nat} (hp : ∀ v, p (j, v) = false) :
    ∀ t : Tab α, Tab.get d (t.filter p) j = d
  | [] => rfl
  | (k, v) :: t => by
    have ih := Tab.get_filter_none hp t
    by_cases h : j = k
    · subst h; simp [hp, ih]
    · cases hk : p (k, v) <;> simp [Tab.get, hk, h, ih]

/-- A removed key reads as an unlisted one. -/
@[simp] theorem Tab.get_del_self (t : Tab α) (i : Nat) : Tab.get d (t.del i) i = d :=
  Tab.get_filter_none (by simp) t

/-- Removing a key leaves what every other key reads. -/
theorem Tab.get_del_ne (t : Tab α) {i j : Nat} (h : j ≠ i) : Tab.get d (t.del i) j = Tab.get d t j :=
  Tab.get_filter_of (by simp [h]) t

/-- A key in the cleared range reads as an unlisted one, every other as before. -/
theorem Tab.get_clear (t : Tab α) (lo hi j : Nat) :
    Tab.get d (t.clear lo hi) j = if lo ≤ j ∧ j < hi then d else Tab.get d t j := by
  unfold Tab.clear
  split
  · rename_i h; exact Tab.get_filter_none (by simp [h.1, h.2]) t
  · rename_i h; exact Tab.get_filter_of (fun _ => by simp; omega) t

/-- A key just put reads as its value. -/
theorem Tab.get_put_self (i : Nat) (v : α) : ∀ t : Tab α, Tab.get d (t.put i v) i = v
  | [] => by simp [Tab.put, Tab.get]
  | (k, u) :: t => by
    have ih := Tab.get_put_self i v t
    unfold Tab.put
    split
    · simp [Tab.get]
    · split <;> simp_all [Tab.get]

/-- Putting a key leaves what every other key reads. -/
theorem Tab.get_put_ne {i j : Nat} (h : j ≠ i) (v : α) : ∀ t : Tab α, Tab.get d (t.put i v) j = Tab.get d t j
  | [] => by simp [Tab.put, Tab.get, h]
  | (k, u) :: t => by
    have ih := Tab.get_put_ne h v t
    unfold Tab.put
    split
    · subst i; simp [Tab.get, h]
    · split <;> simp_all [Tab.get]

/-- The key just written reads as the value written. -/
@[simp] theorem Tab.get_set_self [DecidableEq α] (t : Tab α) (i : Nat) (v : α) : Tab.get d (Tab.set d t i v) i = v := by
  unfold Tab.set
  split
  · rename_i h; rw [h]; exact Tab.get_del_self t i
  · exact Tab.get_put_self i v t

/-- Every other key reads as before, whatever an unlisted key is taken to read as. -/
theorem Tab.get_set_ne [DecidableEq α] {e : α} (t : Tab α) {i j : Nat} (h : j ≠ i) (v : α) :
    Tab.get e (Tab.set d t i v) j = Tab.get e t j := by
  unfold Tab.set
  split
  · exact Tab.get_del_ne t h
  · exact Tab.get_put_ne h v t

end Reads

section Form

variable {α : Type} [DecidableEq α] {d : α}

/-- A table whose keys start at `b` is one whose keys start at any `a` below. -/
theorem Tab.wfFrom_mono {a b : Nat} (h : a ≤ b) : ∀ {t : Tab α}, Tab.wfFrom d b t = true → Tab.wfFrom d a t = true
  | [], _ => rfl
  | (k, v) :: t, w => by
    simp only [Tab.wfFrom, Bool.and_eq_true, decide_eq_true_eq] at w ⊢
    exact ⟨⟨by omega, w.1.2⟩, w.2⟩

/-- Putting a value that is not the unlisted one keeps the form. -/
theorem Tab.wfFrom_put {v : α} (hv : v ≠ d) (i : Nat) :
    ∀ {t : Tab α} {b : Nat}, Tab.wfFrom d b t = true → Tab.wfFrom d (min b i) (t.put i v) = true
  | [], b, _ => by simp [Tab.put, Tab.wfFrom, hv]
  | (k, u) :: t, b, w => by
    simp only [Tab.wfFrom, Bool.and_eq_true, decide_eq_true_eq] at w
    unfold Tab.put
    split
    · subst i
      simp only [Tab.wfFrom, Bool.and_eq_true, decide_eq_true_eq]
      exact ⟨⟨by omega, hv⟩, w.2⟩
    · split
      · simp only [Tab.wfFrom, Bool.and_eq_true, decide_eq_true_eq]
        exact ⟨⟨by omega, hv⟩, ⟨by omega, w.1.2⟩, w.2⟩
      · simp only [Tab.wfFrom, Bool.and_eq_true, decide_eq_true_eq]
        have h := Tab.wfFrom_put hv i w.2
        exact ⟨⟨by omega, w.1.2⟩, Tab.wfFrom_mono (by omega) h⟩

/-- Dropping entries by any test keeps the form. -/
theorem Tab.wfFrom_filter (p : Nat × α → Bool) :
    ∀ {t : Tab α} {b : Nat}, Tab.wfFrom d b t = true → Tab.wfFrom d b (t.filter p) = true
  | [], _, _ => rfl
  | (k, v) :: t, b, w => by
    simp only [Tab.wfFrom, Bool.and_eq_true, decide_eq_true_eq] at w
    simp only [List.filter]
    split
    · simp only [Tab.wfFrom, Bool.and_eq_true, decide_eq_true_eq]
      exact ⟨w.1, Tab.wfFrom_filter p w.2⟩
    · exact Tab.wfFrom_filter p (Tab.wfFrom_mono (by omega) w.2)

/-- Writing keeps the canonical form. -/
theorem Tab.wf_set {t : Tab α} (w : Tab.wf d t = true) (i : Nat) (v : α) : Tab.wf d (Tab.set d t i v) = true := by
  unfold Tab.set Tab.wf at *
  split
  · exact Tab.wfFrom_filter _ w
  · exact Tab.wfFrom_mono (Nat.zero_le _) (Tab.wfFrom_put ‹_› i w)

/-- Clearing a range keeps the canonical form. -/
theorem Tab.wf_clear {t : Tab α} (w : Tab.wf d t = true) (lo hi : Nat) : Tab.wf d (t.clear lo hi) = true :=
  Tab.wfFrom_filter _ w

end Form

end Sys2Proof.Machine
end

