-- ==== Sys2Proof/Laws/State.lean ====
section
/-! SUPPORT. What each update of the module leaves as it was, one lemma per field and update, and what it writes reads as. -/

namespace Sys2Proof.Machine

/-! ### What an update writes -/

@[simp] theorem Mod.queue_setQueue (m : Mod) (i : Nat) (q : Queue) : (m.setQueue i q).queue i = q := Tab.get_set_self _ _ _
@[simp] theorem Mod.ctx_setCtx (m : Mod) (c : Nat) (x : Ctx) : (m.setCtx c x).ctx c = x := Tab.get_set_self _ _ _
@[simp] theorem Mod.part_setPart (m : Mod) (p : Nat) (x : Part) : (m.setPart p x).part p = x := Tab.get_set_self _ _ _
@[simp] theorem Mod.port_setPort (m : Mod) (n : Nat) (x : Port) : (m.setPort n x).port n = x := Tab.get_set_self _ _ _
@[simp] theorem Mod.out_emit (m : Mod) (o : Out) : (m.emit o).out = o :: m.out := rfl

/-- A register just stored reads as its 64 bits. -/
@[simp] theorem Mod.regAt_setRegAt (m : Mod) (off rst v : Nat) : (m.setRegAt off rst v).regAt off rst = v % 2 ^ 64 := by
  simp [Mod.regAt, Mod.setRegAt]

/-- The saturating, counting and bit updates of a field are stores of the field. -/
theorem Mod.bump_eq (m : Mod) (f : Fld) (i n : Nat) : m.bump f i n = m.set f i (satAdd f.len (m.get f i) n) := rfl
theorem Mod.count_eq (m : Mod) (f : Fld) (i n : Nat) : m.count f i n = m.set f i (m.get f i + n) := rfl
theorem Mod.setBit_eq (m : Mod) (f : Fld) (i b : Nat) (v : Bool) :
    m.setBit f i b v = m.set f i (setBits (m.get f i) b 1 (b2n v)) := rfl

/-! ### What a command leaves -/

@[simp] theorem State.leave_mod (s : State) (m : Mod) : (s.leave m).mod = m := rfl
@[simp] theorem State.leave_pins (s : State) (m : Mod) : (s.leave m).pins = m.pins := rfl
@[simp] theorem State.leave_pending (s : State) (m : Mod) : (s.leave m).pending = s.pending := rfl
theorem State.onMod_eq (s : State) (f : Mod → Mod) : s.onMod f = .next (s.leave (f s.mod)) := rfl

/-! ### What an update leaves as it was -/

@[simp] theorem Mod.setRegAt_time (m : Mod) (off rst v : Nat) : (m.setRegAt off rst v).time = m.time := rfl
@[simp] theorem Mod.setRegAt_mem (m : Mod) (off rst v : Nat) : (m.setRegAt off rst v).mem = m.mem := rfl
@[simp] theorem Mod.setRegAt_slices (m : Mod) (off rst v : Nat) : (m.setRegAt off rst v).slices = m.slices := rfl
@[simp] theorem Mod.setRegAt_poison (m : Mod) (off rst v : Nat) : (m.setRegAt off rst v).poison = m.poison := rfl
@[simp] theorem Mod.setRegAt_zones (m : Mod) (off rst v : Nat) : (m.setRegAt off rst v).zones = m.zones := rfl
@[simp] theorem Mod.setRegAt_flags (m : Mod) (off rst v : Nat) : (m.setRegAt off rst v).flags = m.flags := rfl
@[simp] theorem Mod.setRegAt_flagPois (m : Mod) (off rst v : Nat) : (m.setRegAt off rst v).flagPois = m.flagPois := rfl
@[simp] theorem Mod.setRegAt_tdt (m : Mod) (off rst v : Nat) : (m.setRegAt off rst v).tdt = m.tdt := rfl
@[simp] theorem Mod.setRegAt_regions (m : Mod) (off rst v : Nat) : (m.setRegAt off rst v).regions = m.regions := rfl
@[simp] theorem Mod.setRegAt_groupsPend (m : Mod) (off rst v : Nat) : (m.setRegAt off rst v).groupsPend = m.groupsPend := rfl
@[simp] theorem Mod.setRegAt_groupsLatch (m : Mod) (off rst v : Nat) : (m.setRegAt off rst v).groupsLatch = m.groupsLatch := rfl
@[simp] theorem Mod.setRegAt_streams (m : Mod) (off rst v : Nat) : (m.setRegAt off rst v).streams = m.streams := rfl
@[simp] theorem Mod.setRegAt_streamsLatch (m : Mod) (off rst v : Nat) : (m.setRegAt off rst v).streamsLatch = m.streamsLatch := rfl
@[simp] theorem Mod.setRegAt_watch (m : Mod) (off rst v : Nat) : (m.setRegAt off rst v).watch = m.watch := rfl
@[simp] theorem Mod.setRegAt_watchWaits (m : Mod) (off rst v : Nat) : (m.setRegAt off rst v).watchWaits = m.watchWaits := rfl
@[simp] theorem Mod.setRegAt_watchSeen (m : Mod) (off rst v : Nat) : (m.setRegAt off rst v).watchSeen = m.watchSeen := rfl
@[simp] theorem Mod.setRegAt_watchId (m : Mod) (off rst v : Nat) : (m.setRegAt off rst v).watchId = m.watchId := rfl
@[simp] theorem Mod.setRegAt_watchIn (m : Mod) (off rst v : Nat) : (m.setRegAt off rst v).watchIn = m.watchIn := rfl
@[simp] theorem Mod.setRegAt_queues (m : Mod) (off rst v : Nat) : (m.setRegAt off rst v).queues = m.queues := rfl
@[simp] theorem Mod.setRegAt_ctxs (m : Mod) (off rst v : Nat) : (m.setRegAt off rst v).ctxs = m.ctxs := rfl
@[simp] theorem Mod.setRegAt_parts (m : Mod) (off rst v : Nat) : (m.setRegAt off rst v).parts = m.parts := rfl
@[simp] theorem Mod.setRegAt_ports (m : Mod) (off rst v : Nat) : (m.setRegAt off rst v).ports = m.ports := rfl
@[simp] theorem Mod.setRegAt_fab (m : Mod) (off rst v : Nat) : (m.setRegAt off rst v).fab = m.fab := rfl
@[simp] theorem Mod.setRegAt_early (m : Mod) (off rst v : Nat) : (m.setRegAt off rst v).early = m.early := rfl
@[simp] theorem Mod.setRegAt_collWait0 (m : Mod) (off rst v : Nat) : (m.setRegAt off rst v).collWait0 = m.collWait0 := rfl
@[simp] theorem Mod.setRegAt_collWait1 (m : Mod) (off rst v : Nat) : (m.setRegAt off rst v).collWait1 = m.collWait1 := rfl
@[simp] theorem Mod.setRegAt_dirty (m : Mod) (off rst v : Nat) : (m.setRegAt off rst v).dirty = m.dirty := rfl
@[simp] theorem Mod.setRegAt_flog (m : Mod) (off rst v : Nat) : (m.setRegAt off rst v).flog = m.flog := rfl
@[simp] theorem Mod.setRegAt_flogSeq (m : Mod) (off rst v : Nat) : (m.setRegAt off rst v).flogSeq = m.flogSeq := rfl
@[simp] theorem Mod.setRegAt_losses (m : Mod) (off rst v : Nat) : (m.setRegAt off rst v).losses = m.losses := rfl
@[simp] theorem Mod.setRegAt_hang (m : Mod) (off rst v : Nat) : (m.setRegAt off rst v).hang = m.hang := rfl
@[simp] theorem Mod.setRegAt_dump (m : Mod) (off rst v : Nat) : (m.setRegAt off rst v).dump = m.dump := rfl
@[simp] theorem Mod.setRegAt_capture (m : Mod) (off rst v : Nat) : (m.setRegAt off rst v).capture = m.capture := rfl
@[simp] theorem Mod.setRegAt_traceSrc (m : Mod) (off rst v : Nat) : (m.setRegAt off rst v).traceSrc = m.traceSrc := rfl
@[simp] theorem Mod.setRegAt_winCfg (m : Mod) (off rst v : Nat) : (m.setRegAt off rst v).winCfg = m.winCfg := rfl
@[simp] theorem Mod.setRegAt_traceSent (m : Mod) (off rst v : Nat) : (m.setRegAt off rst v).traceSent = m.traceSent := rfl
@[simp] theorem Mod.setRegAt_traceEp (m : Mod) (off rst v : Nat) : (m.setRegAt off rst v).traceEp = m.traceEp := rfl
@[simp] theorem Mod.setRegAt_flash (m : Mod) (off rst v : Nat) : (m.setRegAt off rst v).flash = m.flash := rfl
@[simp] theorem Mod.setRegAt_staging (m : Mod) (off rst v : Nat) : (m.setRegAt off rst v).staging = m.staging := rfl
@[simp] theorem Mod.setRegAt_boot (m : Mod) (off rst v : Nat) : (m.setRegAt off rst v).boot = m.boot := rfl
@[simp] theorem Mod.setRegAt_pcie (m : Mod) (off rst v : Nat) : (m.setRegAt off rst v).pcie = m.pcie := rfl
@[simp] theorem Mod.setRegAt_pwr (m : Mod) (off rst v : Nat) : (m.setRegAt off rst v).pwr = m.pwr := rfl
@[simp] theorem Mod.setRegAt_stop (m : Mod) (off rst v : Nat) : (m.setRegAt off rst v).stop = m.stop := rfl
@[simp] theorem Mod.setRegAt_freeN (m : Mod) (off rst v : Nat) : (m.setRegAt off rst v).freeN = m.freeN := rfl
@[simp] theorem Mod.setRegAt_out (m : Mod) (off rst v : Nat) : (m.setRegAt off rst v).out = m.out := rfl

@[simp] theorem Mod.set_time (m : Mod) (f : Fld) (i v : Nat) : (m.set f i v).time = m.time := rfl
@[simp] theorem Mod.set_mem (m : Mod) (f : Fld) (i v : Nat) : (m.set f i v).mem = m.mem := rfl
@[simp] theorem Mod.set_slices (m : Mod) (f : Fld) (i v : Nat) : (m.set f i v).slices = m.slices := rfl
@[simp] theorem Mod.set_poison (m : Mod) (f : Fld) (i v : Nat) : (m.set f i v).poison = m.poison := rfl
@[simp] theorem Mod.set_zones (m : Mod) (f : Fld) (i v : Nat) : (m.set f i v).zones = m.zones := rfl
@[simp] theorem Mod.set_flags (m : Mod) (f : Fld) (i v : Nat) : (m.set f i v).flags = m.flags := rfl
@[simp] theorem Mod.set_flagPois (m : Mod) (f : Fld) (i v : Nat) : (m.set f i v).flagPois = m.flagPois := rfl
@[simp] theorem Mod.set_tdt (m : Mod) (f : Fld) (i v : Nat) : (m.set f i v).tdt = m.tdt := rfl
@[simp] theorem Mod.set_regions (m : Mod) (f : Fld) (i v : Nat) : (m.set f i v).regions = m.regions := rfl
@[simp] theorem Mod.set_groupsPend (m : Mod) (f : Fld) (i v : Nat) : (m.set f i v).groupsPend = m.groupsPend := rfl
@[simp] theorem Mod.set_groupsLatch (m : Mod) (f : Fld) (i v : Nat) : (m.set f i v).groupsLatch = m.groupsLatch := rfl
@[simp] theorem Mod.set_streams (m : Mod) (f : Fld) (i v : Nat) : (m.set f i v).streams = m.streams := rfl
@[simp] theorem Mod.set_streamsLatch (m : Mod) (f : Fld) (i v : Nat) : (m.set f i v).streamsLatch = m.streamsLatch := rfl
@[simp] theorem Mod.set_watch (m : Mod) (f : Fld) (i v : Nat) : (m.set f i v).watch = m.watch := rfl
@[simp] theorem Mod.set_watchWaits (m : Mod) (f : Fld) (i v : Nat) : (m.set f i v).watchWaits = m.watchWaits := rfl
@[simp] theorem Mod.set_watchSeen (m : Mod) (f : Fld) (i v : Nat) : (m.set f i v).watchSeen = m.watchSeen := rfl
@[simp] theorem Mod.set_watchId (m : Mod) (f : Fld) (i v : Nat) : (m.set f i v).watchId = m.watchId := rfl
@[simp] theorem Mod.set_watchIn (m : Mod) (f : Fld) (i v : Nat) : (m.set f i v).watchIn = m.watchIn := rfl
@[simp] theorem Mod.set_queues (m : Mod) (f : Fld) (i v : Nat) : (m.set f i v).queues = m.queues := rfl
@[simp] theorem Mod.set_ctxs (m : Mod) (f : Fld) (i v : Nat) : (m.set f i v).ctxs = m.ctxs := rfl
@[simp] theorem Mod.set_parts (m : Mod) (f : Fld) (i v : Nat) : (m.set f i v).parts = m.parts := rfl
@[simp] theorem Mod.set_ports (m : Mod) (f : Fld) (i v : Nat) : (m.set f i v).ports = m.ports := rfl
@[simp] theorem Mod.set_fab (m : Mod) (f : Fld) (i v : Nat) : (m.set f i v).fab = m.fab := rfl
@[simp] theorem Mod.set_early (m : Mod) (f : Fld) (i v : Nat) : (m.set f i v).early = m.early := rfl
@[simp] theorem Mod.set_collWait0 (m : Mod) (f : Fld) (i v : Nat) : (m.set f i v).collWait0 = m.collWait0 := rfl
@[simp] theorem Mod.set_collWait1 (m : Mod) (f : Fld) (i v : Nat) : (m.set f i v).collWait1 = m.collWait1 := rfl
@[simp] theorem Mod.set_dirty (m : Mod) (f : Fld) (i v : Nat) : (m.set f i v).dirty = m.dirty := rfl
@[simp] theorem Mod.set_flog (m : Mod) (f : Fld) (i v : Nat) : (m.set f i v).flog = m.flog := rfl
@[simp] theorem Mod.set_flogSeq (m : Mod) (f : Fld) (i v : Nat) : (m.set f i v).flogSeq = m.flogSeq := rfl
@[simp] theorem Mod.set_losses (m : Mod) (f : Fld) (i v : Nat) : (m.set f i v).losses = m.losses := rfl
@[simp] theorem Mod.set_hang (m : Mod) (f : Fld) (i v : Nat) : (m.set f i v).hang = m.hang := rfl
@[simp] theorem Mod.set_dump (m : Mod) (f : Fld) (i v : Nat) : (m.set f i v).dump = m.dump := rfl
@[simp] theorem Mod.set_capture (m : Mod) (f : Fld) (i v : Nat) : (m.set f i v).capture = m.capture := rfl
@[simp] theorem Mod.set_traceSrc (m : Mod) (f : Fld) (i v : Nat) : (m.set f i v).traceSrc = m.traceSrc := rfl
@[simp] theorem Mod.set_winCfg (m : Mod) (f : Fld) (i v : Nat) : (m.set f i v).winCfg = m.winCfg := rfl
@[simp] theorem Mod.set_traceSent (m : Mod) (f : Fld) (i v : Nat) : (m.set f i v).traceSent = m.traceSent := rfl
@[simp] theorem Mod.set_traceEp (m : Mod) (f : Fld) (i v : Nat) : (m.set f i v).traceEp = m.traceEp := rfl
@[simp] theorem Mod.set_flash (m : Mod) (f : Fld) (i v : Nat) : (m.set f i v).flash = m.flash := rfl
@[simp] theorem Mod.set_staging (m : Mod) (f : Fld) (i v : Nat) : (m.set f i v).staging = m.staging := rfl
@[simp] theorem Mod.set_boot (m : Mod) (f : Fld) (i v : Nat) : (m.set f i v).boot = m.boot := rfl
@[simp] theorem Mod.set_pcie (m : Mod) (f : Fld) (i v : Nat) : (m.set f i v).pcie = m.pcie := rfl
@[simp] theorem Mod.set_pwr (m : Mod) (f : Fld) (i v : Nat) : (m.set f i v).pwr = m.pwr := rfl
@[simp] theorem Mod.set_stop (m : Mod) (f : Fld) (i v : Nat) : (m.set f i v).stop = m.stop := rfl
@[simp] theorem Mod.set_freeN (m : Mod) (f : Fld) (i v : Nat) : (m.set f i v).freeN = m.freeN := rfl
@[simp] theorem Mod.set_out (m : Mod) (f : Fld) (i v : Nat) : (m.set f i v).out = m.out := rfl

@[simp] theorem Mod.setQueue_regs (m : Mod) (i : Nat) (q : Queue) : (m.setQueue i q).regs = m.regs := rfl
@[simp] theorem Mod.setQueue_time (m : Mod) (i : Nat) (q : Queue) : (m.setQueue i q).time = m.time := rfl
@[simp] theorem Mod.setQueue_mem (m : Mod) (i : Nat) (q : Queue) : (m.setQueue i q).mem = m.mem := rfl
@[simp] theorem Mod.setQueue_slices (m : Mod) (i : Nat) (q : Queue) : (m.setQueue i q).slices = m.slices := rfl
@[simp] theorem Mod.setQueue_poison (m : Mod) (i : Nat) (q : Queue) : (m.setQueue i q).poison = m.poison := rfl
@[simp] theorem Mod.setQueue_zones (m : Mod) (i : Nat) (q : Queue) : (m.setQueue i q).zones = m.zones := rfl
@[simp] theorem Mod.setQueue_flags (m : Mod) (i : Nat) (q : Queue) : (m.setQueue i q).flags = m.flags := rfl
@[simp] theorem Mod.setQueue_flagPois (m : Mod) (i : Nat) (q : Queue) : (m.setQueue i q).flagPois = m.flagPois := rfl
@[simp] theorem Mod.setQueue_tdt (m : Mod) (i : Nat) (q : Queue) : (m.setQueue i q).tdt = m.tdt := rfl
@[simp] theorem Mod.setQueue_regions (m : Mod) (i : Nat) (q : Queue) : (m.setQueue i q).regions = m.regions := rfl
@[simp] theorem Mod.setQueue_groupsPend (m : Mod) (i : Nat) (q : Queue) : (m.setQueue i q).groupsPend = m.groupsPend := rfl
@[simp] theorem Mod.setQueue_groupsLatch (m : Mod) (i : Nat) (q : Queue) : (m.setQueue i q).groupsLatch = m.groupsLatch := rfl
@[simp] theorem Mod.setQueue_streams (m : Mod) (i : Nat) (q : Queue) : (m.setQueue i q).streams = m.streams := rfl
@[simp] theorem Mod.setQueue_streamsLatch (m : Mod) (i : Nat) (q : Queue) : (m.setQueue i q).streamsLatch = m.streamsLatch := rfl
@[simp] theorem Mod.setQueue_watch (m : Mod) (i : Nat) (q : Queue) : (m.setQueue i q).watch = m.watch := rfl
@[simp] theorem Mod.setQueue_watchWaits (m : Mod) (i : Nat) (q : Queue) : (m.setQueue i q).watchWaits = m.watchWaits := rfl
@[simp] theorem Mod.setQueue_watchSeen (m : Mod) (i : Nat) (q : Queue) : (m.setQueue i q).watchSeen = m.watchSeen := rfl
@[simp] theorem Mod.setQueue_watchId (m : Mod) (i : Nat) (q : Queue) : (m.setQueue i q).watchId = m.watchId := rfl
@[simp] theorem Mod.setQueue_watchIn (m : Mod) (i : Nat) (q : Queue) : (m.setQueue i q).watchIn = m.watchIn := rfl
@[simp] theorem Mod.setQueue_ctxs (m : Mod) (i : Nat) (q : Queue) : (m.setQueue i q).ctxs = m.ctxs := rfl
@[simp] theorem Mod.setQueue_parts (m : Mod) (i : Nat) (q : Queue) : (m.setQueue i q).parts = m.parts := rfl
@[simp] theorem Mod.setQueue_ports (m : Mod) (i : Nat) (q : Queue) : (m.setQueue i q).ports = m.ports := rfl
@[simp] theorem Mod.setQueue_fab (m : Mod) (i : Nat) (q : Queue) : (m.setQueue i q).fab = m.fab := rfl
@[simp] theorem Mod.setQueue_early (m : Mod) (i : Nat) (q : Queue) : (m.setQueue i q).early = m.early := rfl
@[simp] theorem Mod.setQueue_collWait0 (m : Mod) (i : Nat) (q : Queue) : (m.setQueue i q).collWait0 = m.collWait0 := rfl
@[simp] theorem Mod.setQueue_collWait1 (m : Mod) (i : Nat) (q : Queue) : (m.setQueue i q).collWait1 = m.collWait1 := rfl
@[simp] theorem Mod.setQueue_dirty (m : Mod) (i : Nat) (q : Queue) : (m.setQueue i q).dirty = m.dirty := rfl
@[simp] theorem Mod.setQueue_flog (m : Mod) (i : Nat) (q : Queue) : (m.setQueue i q).flog = m.flog := rfl
@[simp] theorem Mod.setQueue_flogSeq (m : Mod) (i : Nat) (q : Queue) : (m.setQueue i q).flogSeq = m.flogSeq := rfl
@[simp] theorem Mod.setQueue_losses (m : Mod) (i : Nat) (q : Queue) : (m.setQueue i q).losses = m.losses := rfl
@[simp] theorem Mod.setQueue_hang (m : Mod) (i : Nat) (q : Queue) : (m.setQueue i q).hang = m.hang := rfl
@[simp] theorem Mod.setQueue_dump (m : Mod) (i : Nat) (q : Queue) : (m.setQueue i q).dump = m.dump := rfl
@[simp] theorem Mod.setQueue_capture (m : Mod) (i : Nat) (q : Queue) : (m.setQueue i q).capture = m.capture := rfl
@[simp] theorem Mod.setQueue_traceSrc (m : Mod) (i : Nat) (q : Queue) : (m.setQueue i q).traceSrc = m.traceSrc := rfl
@[simp] theorem Mod.setQueue_winCfg (m : Mod) (i : Nat) (q : Queue) : (m.setQueue i q).winCfg = m.winCfg := rfl
@[simp] theorem Mod.setQueue_traceSent (m : Mod) (i : Nat) (q : Queue) : (m.setQueue i q).traceSent = m.traceSent := rfl
@[simp] theorem Mod.setQueue_traceEp (m : Mod) (i : Nat) (q : Queue) : (m.setQueue i q).traceEp = m.traceEp := rfl
@[simp] theorem Mod.setQueue_flash (m : Mod) (i : Nat) (q : Queue) : (m.setQueue i q).flash = m.flash := rfl
@[simp] theorem Mod.setQueue_staging (m : Mod) (i : Nat) (q : Queue) : (m.setQueue i q).staging = m.staging := rfl
@[simp] theorem Mod.setQueue_boot (m : Mod) (i : Nat) (q : Queue) : (m.setQueue i q).boot = m.boot := rfl
@[simp] theorem Mod.setQueue_pcie (m : Mod) (i : Nat) (q : Queue) : (m.setQueue i q).pcie = m.pcie := rfl
@[simp] theorem Mod.setQueue_pwr (m : Mod) (i : Nat) (q : Queue) : (m.setQueue i q).pwr = m.pwr := rfl
@[simp] theorem Mod.setQueue_stop (m : Mod) (i : Nat) (q : Queue) : (m.setQueue i q).stop = m.stop := rfl
@[simp] theorem Mod.setQueue_freeN (m : Mod) (i : Nat) (q : Queue) : (m.setQueue i q).freeN = m.freeN := rfl
@[simp] theorem Mod.setQueue_out (m : Mod) (i : Nat) (q : Queue) : (m.setQueue i q).out = m.out := rfl

@[simp] theorem Mod.setCtx_regs (m : Mod) (c : Nat) (x : Ctx) : (m.setCtx c x).regs = m.regs := rfl
@[simp] theorem Mod.setCtx_time (m : Mod) (c : Nat) (x : Ctx) : (m.setCtx c x).time = m.time := rfl
@[simp] theorem Mod.setCtx_mem (m : Mod) (c : Nat) (x : Ctx) : (m.setCtx c x).mem = m.mem := rfl
@[simp] theorem Mod.setCtx_slices (m : Mod) (c : Nat) (x : Ctx) : (m.setCtx c x).slices = m.slices := rfl
@[simp] theorem Mod.setCtx_poison (m : Mod) (c : Nat) (x : Ctx) : (m.setCtx c x).poison = m.poison := rfl
@[simp] theorem Mod.setCtx_zones (m : Mod) (c : Nat) (x : Ctx) : (m.setCtx c x).zones = m.zones := rfl
@[simp] theorem Mod.setCtx_flags (m : Mod) (c : Nat) (x : Ctx) : (m.setCtx c x).flags = m.flags := rfl
@[simp] theorem Mod.setCtx_flagPois (m : Mod) (c : Nat) (x : Ctx) : (m.setCtx c x).flagPois = m.flagPois := rfl
@[simp] theorem Mod.setCtx_tdt (m : Mod) (c : Nat) (x : Ctx) : (m.setCtx c x).tdt = m.tdt := rfl
@[simp] theorem Mod.setCtx_regions (m : Mod) (c : Nat) (x : Ctx) : (m.setCtx c x).regions = m.regions := rfl
@[simp] theorem Mod.setCtx_groupsPend (m : Mod) (c : Nat) (x : Ctx) : (m.setCtx c x).groupsPend = m.groupsPend := rfl
@[simp] theorem Mod.setCtx_groupsLatch (m : Mod) (c : Nat) (x : Ctx) : (m.setCtx c x).groupsLatch = m.groupsLatch := rfl
@[simp] theorem Mod.setCtx_streams (m : Mod) (c : Nat) (x : Ctx) : (m.setCtx c x).streams = m.streams := rfl
@[simp] theorem Mod.setCtx_streamsLatch (m : Mod) (c : Nat) (x : Ctx) : (m.setCtx c x).streamsLatch = m.streamsLatch := rfl
@[simp] theorem Mod.setCtx_watch (m : Mod) (c : Nat) (x : Ctx) : (m.setCtx c x).watch = m.watch := rfl
@[simp] theorem Mod.setCtx_watchWaits (m : Mod) (c : Nat) (x : Ctx) : (m.setCtx c x).watchWaits = m.watchWaits := rfl
@[simp] theorem Mod.setCtx_watchSeen (m : Mod) (c : Nat) (x : Ctx) : (m.setCtx c x).watchSeen = m.watchSeen := rfl
@[simp] theorem Mod.setCtx_watchId (m : Mod) (c : Nat) (x : Ctx) : (m.setCtx c x).watchId = m.watchId := rfl
@[simp] theorem Mod.setCtx_watchIn (m : Mod) (c : Nat) (x : Ctx) : (m.setCtx c x).watchIn = m.watchIn := rfl
@[simp] theorem Mod.setCtx_queues (m : Mod) (c : Nat) (x : Ctx) : (m.setCtx c x).queues = m.queues := rfl
@[simp] theorem Mod.setCtx_parts (m : Mod) (c : Nat) (x : Ctx) : (m.setCtx c x).parts = m.parts := rfl
@[simp] theorem Mod.setCtx_ports (m : Mod) (c : Nat) (x : Ctx) : (m.setCtx c x).ports = m.ports := rfl
@[simp] theorem Mod.setCtx_fab (m : Mod) (c : Nat) (x : Ctx) : (m.setCtx c x).fab = m.fab := rfl
@[simp] theorem Mod.setCtx_early (m : Mod) (c : Nat) (x : Ctx) : (m.setCtx c x).early = m.early := rfl
@[simp] theorem Mod.setCtx_collWait0 (m : Mod) (c : Nat) (x : Ctx) : (m.setCtx c x).collWait0 = m.collWait0 := rfl
@[simp] theorem Mod.setCtx_collWait1 (m : Mod) (c : Nat) (x : Ctx) : (m.setCtx c x).collWait1 = m.collWait1 := rfl
@[simp] theorem Mod.setCtx_dirty (m : Mod) (c : Nat) (x : Ctx) : (m.setCtx c x).dirty = m.dirty := rfl
@[simp] theorem Mod.setCtx_flog (m : Mod) (c : Nat) (x : Ctx) : (m.setCtx c x).flog = m.flog := rfl
@[simp] theorem Mod.setCtx_flogSeq (m : Mod) (c : Nat) (x : Ctx) : (m.setCtx c x).flogSeq = m.flogSeq := rfl
@[simp] theorem Mod.setCtx_losses (m : Mod) (c : Nat) (x : Ctx) : (m.setCtx c x).losses = m.losses := rfl
@[simp] theorem Mod.setCtx_hang (m : Mod) (c : Nat) (x : Ctx) : (m.setCtx c x).hang = m.hang := rfl
@[simp] theorem Mod.setCtx_dump (m : Mod) (c : Nat) (x : Ctx) : (m.setCtx c x).dump = m.dump := rfl
@[simp] theorem Mod.setCtx_capture (m : Mod) (c : Nat) (x : Ctx) : (m.setCtx c x).capture = m.capture := rfl
@[simp] theorem Mod.setCtx_traceSrc (m : Mod) (c : Nat) (x : Ctx) : (m.setCtx c x).traceSrc = m.traceSrc := rfl
@[simp] theorem Mod.setCtx_winCfg (m : Mod) (c : Nat) (x : Ctx) : (m.setCtx c x).winCfg = m.winCfg := rfl
@[simp] theorem Mod.setCtx_traceSent (m : Mod) (c : Nat) (x : Ctx) : (m.setCtx c x).traceSent = m.traceSent := rfl
@[simp] theorem Mod.setCtx_traceEp (m : Mod) (c : Nat) (x : Ctx) : (m.setCtx c x).traceEp = m.traceEp := rfl
@[simp] theorem Mod.setCtx_flash (m : Mod) (c : Nat) (x : Ctx) : (m.setCtx c x).flash = m.flash := rfl
@[simp] theorem Mod.setCtx_staging (m : Mod) (c : Nat) (x : Ctx) : (m.setCtx c x).staging = m.staging := rfl
@[simp] theorem Mod.setCtx_boot (m : Mod) (c : Nat) (x : Ctx) : (m.setCtx c x).boot = m.boot := rfl
@[simp] theorem Mod.setCtx_pcie (m : Mod) (c : Nat) (x : Ctx) : (m.setCtx c x).pcie = m.pcie := rfl
@[simp] theorem Mod.setCtx_pwr (m : Mod) (c : Nat) (x : Ctx) : (m.setCtx c x).pwr = m.pwr := rfl
@[simp] theorem Mod.setCtx_stop (m : Mod) (c : Nat) (x : Ctx) : (m.setCtx c x).stop = m.stop := rfl
@[simp] theorem Mod.setCtx_freeN (m : Mod) (c : Nat) (x : Ctx) : (m.setCtx c x).freeN = m.freeN := rfl
@[simp] theorem Mod.setCtx_out (m : Mod) (c : Nat) (x : Ctx) : (m.setCtx c x).out = m.out := rfl

@[simp] theorem Mod.setPart_regs (m : Mod) (p : Nat) (x : Part) : (m.setPart p x).regs = m.regs := rfl
@[simp] theorem Mod.setPart_time (m : Mod) (p : Nat) (x : Part) : (m.setPart p x).time = m.time := rfl
@[simp] theorem Mod.setPart_mem (m : Mod) (p : Nat) (x : Part) : (m.setPart p x).mem = m.mem := rfl
@[simp] theorem Mod.setPart_slices (m : Mod) (p : Nat) (x : Part) : (m.setPart p x).slices = m.slices := rfl
@[simp] theorem Mod.setPart_poison (m : Mod) (p : Nat) (x : Part) : (m.setPart p x).poison = m.poison := rfl
@[simp] theorem Mod.setPart_zones (m : Mod) (p : Nat) (x : Part) : (m.setPart p x).zones = m.zones := rfl
@[simp] theorem Mod.setPart_flags (m : Mod) (p : Nat) (x : Part) : (m.setPart p x).flags = m.flags := rfl
@[simp] theorem Mod.setPart_flagPois (m : Mod) (p : Nat) (x : Part) : (m.setPart p x).flagPois = m.flagPois := rfl
@[simp] theorem Mod.setPart_tdt (m : Mod) (p : Nat) (x : Part) : (m.setPart p x).tdt = m.tdt := rfl
@[simp] theorem Mod.setPart_regions (m : Mod) (p : Nat) (x : Part) : (m.setPart p x).regions = m.regions := rfl
@[simp] theorem Mod.setPart_groupsPend (m : Mod) (p : Nat) (x : Part) : (m.setPart p x).groupsPend = m.groupsPend := rfl
@[simp] theorem Mod.setPart_groupsLatch (m : Mod) (p : Nat) (x : Part) : (m.setPart p x).groupsLatch = m.groupsLatch := rfl
@[simp] theorem Mod.setPart_streams (m : Mod) (p : Nat) (x : Part) : (m.setPart p x).streams = m.streams := rfl
@[simp] theorem Mod.setPart_streamsLatch (m : Mod) (p : Nat) (x : Part) : (m.setPart p x).streamsLatch = m.streamsLatch := rfl
@[simp] theorem Mod.setPart_watch (m : Mod) (p : Nat) (x : Part) : (m.setPart p x).watch = m.watch := rfl
@[simp] theorem Mod.setPart_watchWaits (m : Mod) (p : Nat) (x : Part) : (m.setPart p x).watchWaits = m.watchWaits := rfl
@[simp] theorem Mod.setPart_watchSeen (m : Mod) (p : Nat) (x : Part) : (m.setPart p x).watchSeen = m.watchSeen := rfl
@[simp] theorem Mod.setPart_watchId (m : Mod) (p : Nat) (x : Part) : (m.setPart p x).watchId = m.watchId := rfl
@[simp] theorem Mod.setPart_watchIn (m : Mod) (p : Nat) (x : Part) : (m.setPart p x).watchIn = m.watchIn := rfl
@[simp] theorem Mod.setPart_queues (m : Mod) (p : Nat) (x : Part) : (m.setPart p x).queues = m.queues := rfl
@[simp] theorem Mod.setPart_ctxs (m : Mod) (p : Nat) (x : Part) : (m.setPart p x).ctxs = m.ctxs := rfl
@[simp] theorem Mod.setPart_ports (m : Mod) (p : Nat) (x : Part) : (m.setPart p x).ports = m.ports := rfl
@[simp] theorem Mod.setPart_fab (m : Mod) (p : Nat) (x : Part) : (m.setPart p x).fab = m.fab := rfl
@[simp] theorem Mod.setPart_early (m : Mod) (p : Nat) (x : Part) : (m.setPart p x).early = m.early := rfl
@[simp] theorem Mod.setPart_collWait0 (m : Mod) (p : Nat) (x : Part) : (m.setPart p x).collWait0 = m.collWait0 := rfl
@[simp] theorem Mod.setPart_collWait1 (m : Mod) (p : Nat) (x : Part) : (m.setPart p x).collWait1 = m.collWait1 := rfl
@[simp] theorem Mod.setPart_dirty (m : Mod) (p : Nat) (x : Part) : (m.setPart p x).dirty = m.dirty := rfl
@[simp] theorem Mod.setPart_flog (m : Mod) (p : Nat) (x : Part) : (m.setPart p x).flog = m.flog := rfl
@[simp] theorem Mod.setPart_flogSeq (m : Mod) (p : Nat) (x : Part) : (m.setPart p x).flogSeq = m.flogSeq := rfl
@[simp] theorem Mod.setPart_losses (m : Mod) (p : Nat) (x : Part) : (m.setPart p x).losses = m.losses := rfl
@[simp] theorem Mod.setPart_hang (m : Mod) (p : Nat) (x : Part) : (m.setPart p x).hang = m.hang := rfl
@[simp] theorem Mod.setPart_dump (m : Mod) (p : Nat) (x : Part) : (m.setPart p x).dump = m.dump := rfl
@[simp] theorem Mod.setPart_capture (m : Mod) (p : Nat) (x : Part) : (m.setPart p x).capture = m.capture := rfl
@[simp] theorem Mod.setPart_traceSrc (m : Mod) (p : Nat) (x : Part) : (m.setPart p x).traceSrc = m.traceSrc := rfl
@[simp] theorem Mod.setPart_winCfg (m : Mod) (p : Nat) (x : Part) : (m.setPart p x).winCfg = m.winCfg := rfl
@[simp] theorem Mod.setPart_traceSent (m : Mod) (p : Nat) (x : Part) : (m.setPart p x).traceSent = m.traceSent := rfl
@[simp] theorem Mod.setPart_traceEp (m : Mod) (p : Nat) (x : Part) : (m.setPart p x).traceEp = m.traceEp := rfl
@[simp] theorem Mod.setPart_flash (m : Mod) (p : Nat) (x : Part) : (m.setPart p x).flash = m.flash := rfl
@[simp] theorem Mod.setPart_staging (m : Mod) (p : Nat) (x : Part) : (m.setPart p x).staging = m.staging := rfl
@[simp] theorem Mod.setPart_boot (m : Mod) (p : Nat) (x : Part) : (m.setPart p x).boot = m.boot := rfl
@[simp] theorem Mod.setPart_pcie (m : Mod) (p : Nat) (x : Part) : (m.setPart p x).pcie = m.pcie := rfl
@[simp] theorem Mod.setPart_pwr (m : Mod) (p : Nat) (x : Part) : (m.setPart p x).pwr = m.pwr := rfl
@[simp] theorem Mod.setPart_stop (m : Mod) (p : Nat) (x : Part) : (m.setPart p x).stop = m.stop := rfl
@[simp] theorem Mod.setPart_freeN (m : Mod) (p : Nat) (x : Part) : (m.setPart p x).freeN = m.freeN := rfl
@[simp] theorem Mod.setPart_out (m : Mod) (p : Nat) (x : Part) : (m.setPart p x).out = m.out := rfl

@[simp] theorem Mod.setPort_regs (m : Mod) (n : Nat) (x : Port) : (m.setPort n x).regs = m.regs := rfl
@[simp] theorem Mod.setPort_time (m : Mod) (n : Nat) (x : Port) : (m.setPort n x).time = m.time := rfl
@[simp] theorem Mod.setPort_mem (m : Mod) (n : Nat) (x : Port) : (m.setPort n x).mem = m.mem := rfl
@[simp] theorem Mod.setPort_slices (m : Mod) (n : Nat) (x : Port) : (m.setPort n x).slices = m.slices := rfl
@[simp] theorem Mod.setPort_poison (m : Mod) (n : Nat) (x : Port) : (m.setPort n x).poison = m.poison := rfl
@[simp] theorem Mod.setPort_zones (m : Mod) (n : Nat) (x : Port) : (m.setPort n x).zones = m.zones := rfl
@[simp] theorem Mod.setPort_flags (m : Mod) (n : Nat) (x : Port) : (m.setPort n x).flags = m.flags := rfl
@[simp] theorem Mod.setPort_flagPois (m : Mod) (n : Nat) (x : Port) : (m.setPort n x).flagPois = m.flagPois := rfl
@[simp] theorem Mod.setPort_tdt (m : Mod) (n : Nat) (x : Port) : (m.setPort n x).tdt = m.tdt := rfl
@[simp] theorem Mod.setPort_regions (m : Mod) (n : Nat) (x : Port) : (m.setPort n x).regions = m.regions := rfl
@[simp] theorem Mod.setPort_groupsPend (m : Mod) (n : Nat) (x : Port) : (m.setPort n x).groupsPend = m.groupsPend := rfl
@[simp] theorem Mod.setPort_groupsLatch (m : Mod) (n : Nat) (x : Port) : (m.setPort n x).groupsLatch = m.groupsLatch := rfl
@[simp] theorem Mod.setPort_streams (m : Mod) (n : Nat) (x : Port) : (m.setPort n x).streams = m.streams := rfl
@[simp] theorem Mod.setPort_streamsLatch (m : Mod) (n : Nat) (x : Port) : (m.setPort n x).streamsLatch = m.streamsLatch := rfl
@[simp] theorem Mod.setPort_watch (m : Mod) (n : Nat) (x : Port) : (m.setPort n x).watch = m.watch := rfl
@[simp] theorem Mod.setPort_watchWaits (m : Mod) (n : Nat) (x : Port) : (m.setPort n x).watchWaits = m.watchWaits := rfl
@[simp] theorem Mod.setPort_watchSeen (m : Mod) (n : Nat) (x : Port) : (m.setPort n x).watchSeen = m.watchSeen := rfl
@[simp] theorem Mod.setPort_watchId (m : Mod) (n : Nat) (x : Port) : (m.setPort n x).watchId = m.watchId := rfl
@[simp] theorem Mod.setPort_watchIn (m : Mod) (n : Nat) (x : Port) : (m.setPort n x).watchIn = m.watchIn := rfl
@[simp] theorem Mod.setPort_queues (m : Mod) (n : Nat) (x : Port) : (m.setPort n x).queues = m.queues := rfl
@[simp] theorem Mod.setPort_ctxs (m : Mod) (n : Nat) (x : Port) : (m.setPort n x).ctxs = m.ctxs := rfl
@[simp] theorem Mod.setPort_parts (m : Mod) (n : Nat) (x : Port) : (m.setPort n x).parts = m.parts := rfl
@[simp] theorem Mod.setPort_fab (m : Mod) (n : Nat) (x : Port) : (m.setPort n x).fab = m.fab := rfl
@[simp] theorem Mod.setPort_early (m : Mod) (n : Nat) (x : Port) : (m.setPort n x).early = m.early := rfl
@[simp] theorem Mod.setPort_collWait0 (m : Mod) (n : Nat) (x : Port) : (m.setPort n x).collWait0 = m.collWait0 := rfl
@[simp] theorem Mod.setPort_collWait1 (m : Mod) (n : Nat) (x : Port) : (m.setPort n x).collWait1 = m.collWait1 := rfl
@[simp] theorem Mod.setPort_dirty (m : Mod) (n : Nat) (x : Port) : (m.setPort n x).dirty = m.dirty := rfl
@[simp] theorem Mod.setPort_flog (m : Mod) (n : Nat) (x : Port) : (m.setPort n x).flog = m.flog := rfl
@[simp] theorem Mod.setPort_flogSeq (m : Mod) (n : Nat) (x : Port) : (m.setPort n x).flogSeq = m.flogSeq := rfl
@[simp] theorem Mod.setPort_losses (m : Mod) (n : Nat) (x : Port) : (m.setPort n x).losses = m.losses := rfl
@[simp] theorem Mod.setPort_hang (m : Mod) (n : Nat) (x : Port) : (m.setPort n x).hang = m.hang := rfl
@[simp] theorem Mod.setPort_dump (m : Mod) (n : Nat) (x : Port) : (m.setPort n x).dump = m.dump := rfl
@[simp] theorem Mod.setPort_capture (m : Mod) (n : Nat) (x : Port) : (m.setPort n x).capture = m.capture := rfl
@[simp] theorem Mod.setPort_traceSrc (m : Mod) (n : Nat) (x : Port) : (m.setPort n x).traceSrc = m.traceSrc := rfl
@[simp] theorem Mod.setPort_winCfg (m : Mod) (n : Nat) (x : Port) : (m.setPort n x).winCfg = m.winCfg := rfl
@[simp] theorem Mod.setPort_traceSent (m : Mod) (n : Nat) (x : Port) : (m.setPort n x).traceSent = m.traceSent := rfl
@[simp] theorem Mod.setPort_traceEp (m : Mod) (n : Nat) (x : Port) : (m.setPort n x).traceEp = m.traceEp := rfl
@[simp] theorem Mod.setPort_flash (m : Mod) (n : Nat) (x : Port) : (m.setPort n x).flash = m.flash := rfl
@[simp] theorem Mod.setPort_staging (m : Mod) (n : Nat) (x : Port) : (m.setPort n x).staging = m.staging := rfl
@[simp] theorem Mod.setPort_boot (m : Mod) (n : Nat) (x : Port) : (m.setPort n x).boot = m.boot := rfl
@[simp] theorem Mod.setPort_pcie (m : Mod) (n : Nat) (x : Port) : (m.setPort n x).pcie = m.pcie := rfl
@[simp] theorem Mod.setPort_pwr (m : Mod) (n : Nat) (x : Port) : (m.setPort n x).pwr = m.pwr := rfl
@[simp] theorem Mod.setPort_stop (m : Mod) (n : Nat) (x : Port) : (m.setPort n x).stop = m.stop := rfl
@[simp] theorem Mod.setPort_freeN (m : Mod) (n : Nat) (x : Port) : (m.setPort n x).freeN = m.freeN := rfl
@[simp] theorem Mod.setPort_out (m : Mod) (n : Nat) (x : Port) : (m.setPort n x).out = m.out := rfl

@[simp] theorem Mod.emit_regs (m : Mod) (o : Out) : (m.emit o).regs = m.regs := rfl
@[simp] theorem Mod.emit_time (m : Mod) (o : Out) : (m.emit o).time = m.time := rfl
@[simp] theorem Mod.emit_mem (m : Mod) (o : Out) : (m.emit o).mem = m.mem := rfl
@[simp] theorem Mod.emit_slices (m : Mod) (o : Out) : (m.emit o).slices = m.slices := rfl
@[simp] theorem Mod.emit_poison (m : Mod) (o : Out) : (m.emit o).poison = m.poison := rfl
@[simp] theorem Mod.emit_zones (m : Mod) (o : Out) : (m.emit o).zones = m.zones := rfl
@[simp] theorem Mod.emit_flags (m : Mod) (o : Out) : (m.emit o).flags = m.flags := rfl
@[simp] theorem Mod.emit_flagPois (m : Mod) (o : Out) : (m.emit o).flagPois = m.flagPois := rfl
@[simp] theorem Mod.emit_tdt (m : Mod) (o : Out) : (m.emit o).tdt = m.tdt := rfl
@[simp] theorem Mod.emit_regions (m : Mod) (o : Out) : (m.emit o).regions = m.regions := rfl
@[simp] theorem Mod.emit_groupsPend (m : Mod) (o : Out) : (m.emit o).groupsPend = m.groupsPend := rfl
@[simp] theorem Mod.emit_groupsLatch (m : Mod) (o : Out) : (m.emit o).groupsLatch = m.groupsLatch := rfl
@[simp] theorem Mod.emit_streams (m : Mod) (o : Out) : (m.emit o).streams = m.streams := rfl
@[simp] theorem Mod.emit_streamsLatch (m : Mod) (o : Out) : (m.emit o).streamsLatch = m.streamsLatch := rfl
@[simp] theorem Mod.emit_watch (m : Mod) (o : Out) : (m.emit o).watch = m.watch := rfl
@[simp] theorem Mod.emit_watchWaits (m : Mod) (o : Out) : (m.emit o).watchWaits = m.watchWaits := rfl
@[simp] theorem Mod.emit_watchSeen (m : Mod) (o : Out) : (m.emit o).watchSeen = m.watchSeen := rfl
@[simp] theorem Mod.emit_watchId (m : Mod) (o : Out) : (m.emit o).watchId = m.watchId := rfl
@[simp] theorem Mod.emit_watchIn (m : Mod) (o : Out) : (m.emit o).watchIn = m.watchIn := rfl
@[simp] theorem Mod.emit_queues (m : Mod) (o : Out) : (m.emit o).queues = m.queues := rfl
@[simp] theorem Mod.emit_ctxs (m : Mod) (o : Out) : (m.emit o).ctxs = m.ctxs := rfl
@[simp] theorem Mod.emit_parts (m : Mod) (o : Out) : (m.emit o).parts = m.parts := rfl
@[simp] theorem Mod.emit_ports (m : Mod) (o : Out) : (m.emit o).ports = m.ports := rfl
@[simp] theorem Mod.emit_fab (m : Mod) (o : Out) : (m.emit o).fab = m.fab := rfl
@[simp] theorem Mod.emit_early (m : Mod) (o : Out) : (m.emit o).early = m.early := rfl
@[simp] theorem Mod.emit_collWait0 (m : Mod) (o : Out) : (m.emit o).collWait0 = m.collWait0 := rfl
@[simp] theorem Mod.emit_collWait1 (m : Mod) (o : Out) : (m.emit o).collWait1 = m.collWait1 := rfl
@[simp] theorem Mod.emit_dirty (m : Mod) (o : Out) : (m.emit o).dirty = m.dirty := rfl
@[simp] theorem Mod.emit_flog (m : Mod) (o : Out) : (m.emit o).flog = m.flog := rfl
@[simp] theorem Mod.emit_flogSeq (m : Mod) (o : Out) : (m.emit o).flogSeq = m.flogSeq := rfl
@[simp] theorem Mod.emit_losses (m : Mod) (o : Out) : (m.emit o).losses = m.losses := rfl
@[simp] theorem Mod.emit_hang (m : Mod) (o : Out) : (m.emit o).hang = m.hang := rfl
@[simp] theorem Mod.emit_dump (m : Mod) (o : Out) : (m.emit o).dump = m.dump := rfl
@[simp] theorem Mod.emit_capture (m : Mod) (o : Out) : (m.emit o).capture = m.capture := rfl
@[simp] theorem Mod.emit_traceSrc (m : Mod) (o : Out) : (m.emit o).traceSrc = m.traceSrc := rfl
@[simp] theorem Mod.emit_winCfg (m : Mod) (o : Out) : (m.emit o).winCfg = m.winCfg := rfl
@[simp] theorem Mod.emit_traceSent (m : Mod) (o : Out) : (m.emit o).traceSent = m.traceSent := rfl
@[simp] theorem Mod.emit_traceEp (m : Mod) (o : Out) : (m.emit o).traceEp = m.traceEp := rfl
@[simp] theorem Mod.emit_flash (m : Mod) (o : Out) : (m.emit o).flash = m.flash := rfl
@[simp] theorem Mod.emit_staging (m : Mod) (o : Out) : (m.emit o).staging = m.staging := rfl
@[simp] theorem Mod.emit_boot (m : Mod) (o : Out) : (m.emit o).boot = m.boot := rfl
@[simp] theorem Mod.emit_pcie (m : Mod) (o : Out) : (m.emit o).pcie = m.pcie := rfl
@[simp] theorem Mod.emit_pwr (m : Mod) (o : Out) : (m.emit o).pwr = m.pwr := rfl
@[simp] theorem Mod.emit_stop (m : Mod) (o : Out) : (m.emit o).stop = m.stop := rfl
@[simp] theorem Mod.emit_freeN (m : Mod) (o : Out) : (m.emit o).freeN = m.freeN := rfl

@[simp] theorem Mod.wrByte_regs (m : Mod) (pa : Nat) (b : Byte) : (m.wrByte pa b).regs = m.regs := rfl
@[simp] theorem Mod.wrByte_time (m : Mod) (pa : Nat) (b : Byte) : (m.wrByte pa b).time = m.time := rfl
@[simp] theorem Mod.wrByte_slices (m : Mod) (pa : Nat) (b : Byte) : (m.wrByte pa b).slices = m.slices := rfl
@[simp] theorem Mod.wrByte_poison (m : Mod) (pa : Nat) (b : Byte) : (m.wrByte pa b).poison = m.poison := rfl
@[simp] theorem Mod.wrByte_zones (m : Mod) (pa : Nat) (b : Byte) : (m.wrByte pa b).zones = m.zones := rfl
@[simp] theorem Mod.wrByte_flags (m : Mod) (pa : Nat) (b : Byte) : (m.wrByte pa b).flags = m.flags := rfl
@[simp] theorem Mod.wrByte_flagPois (m : Mod) (pa : Nat) (b : Byte) : (m.wrByte pa b).flagPois = m.flagPois := rfl
@[simp] theorem Mod.wrByte_tdt (m : Mod) (pa : Nat) (b : Byte) : (m.wrByte pa b).tdt = m.tdt := rfl
@[simp] theorem Mod.wrByte_regions (m : Mod) (pa : Nat) (b : Byte) : (m.wrByte pa b).regions = m.regions := rfl
@[simp] theorem Mod.wrByte_groupsPend (m : Mod) (pa : Nat) (b : Byte) : (m.wrByte pa b).groupsPend = m.groupsPend := rfl
@[simp] theorem Mod.wrByte_groupsLatch (m : Mod) (pa : Nat) (b : Byte) : (m.wrByte pa b).groupsLatch = m.groupsLatch := rfl
@[simp] theorem Mod.wrByte_streams (m : Mod) (pa : Nat) (b : Byte) : (m.wrByte pa b).streams = m.streams := rfl
@[simp] theorem Mod.wrByte_streamsLatch (m : Mod) (pa : Nat) (b : Byte) : (m.wrByte pa b).streamsLatch = m.streamsLatch := rfl
@[simp] theorem Mod.wrByte_watch (m : Mod) (pa : Nat) (b : Byte) : (m.wrByte pa b).watch = m.watch := rfl
@[simp] theorem Mod.wrByte_watchWaits (m : Mod) (pa : Nat) (b : Byte) : (m.wrByte pa b).watchWaits = m.watchWaits := rfl
@[simp] theorem Mod.wrByte_watchSeen (m : Mod) (pa : Nat) (b : Byte) : (m.wrByte pa b).watchSeen = m.watchSeen := rfl
@[simp] theorem Mod.wrByte_watchId (m : Mod) (pa : Nat) (b : Byte) : (m.wrByte pa b).watchId = m.watchId := rfl
@[simp] theorem Mod.wrByte_watchIn (m : Mod) (pa : Nat) (b : Byte) : (m.wrByte pa b).watchIn = m.watchIn := rfl
@[simp] theorem Mod.wrByte_queues (m : Mod) (pa : Nat) (b : Byte) : (m.wrByte pa b).queues = m.queues := rfl
@[simp] theorem Mod.wrByte_ctxs (m : Mod) (pa : Nat) (b : Byte) : (m.wrByte pa b).ctxs = m.ctxs := rfl
@[simp] theorem Mod.wrByte_parts (m : Mod) (pa : Nat) (b : Byte) : (m.wrByte pa b).parts = m.parts := rfl
@[simp] theorem Mod.wrByte_ports (m : Mod) (pa : Nat) (b : Byte) : (m.wrByte pa b).ports = m.ports := rfl
@[simp] theorem Mod.wrByte_fab (m : Mod) (pa : Nat) (b : Byte) : (m.wrByte pa b).fab = m.fab := rfl
@[simp] theorem Mod.wrByte_early (m : Mod) (pa : Nat) (b : Byte) : (m.wrByte pa b).early = m.early := rfl
@[simp] theorem Mod.wrByte_collWait0 (m : Mod) (pa : Nat) (b : Byte) : (m.wrByte pa b).collWait0 = m.collWait0 := rfl
@[simp] theorem Mod.wrByte_collWait1 (m : Mod) (pa : Nat) (b : Byte) : (m.wrByte pa b).collWait1 = m.collWait1 := rfl
@[simp] theorem Mod.wrByte_dirty (m : Mod) (pa : Nat) (b : Byte) : (m.wrByte pa b).dirty = m.dirty := rfl
@[simp] theorem Mod.wrByte_flog (m : Mod) (pa : Nat) (b : Byte) : (m.wrByte pa b).flog = m.flog := rfl
@[simp] theorem Mod.wrByte_flogSeq (m : Mod) (pa : Nat) (b : Byte) : (m.wrByte pa b).flogSeq = m.flogSeq := rfl
@[simp] theorem Mod.wrByte_losses (m : Mod) (pa : Nat) (b : Byte) : (m.wrByte pa b).losses = m.losses := rfl
@[simp] theorem Mod.wrByte_hang (m : Mod) (pa : Nat) (b : Byte) : (m.wrByte pa b).hang = m.hang := rfl
@[simp] theorem Mod.wrByte_dump (m : Mod) (pa : Nat) (b : Byte) : (m.wrByte pa b).dump = m.dump := rfl
@[simp] theorem Mod.wrByte_capture (m : Mod) (pa : Nat) (b : Byte) : (m.wrByte pa b).capture = m.capture := rfl
@[simp] theorem Mod.wrByte_traceSrc (m : Mod) (pa : Nat) (b : Byte) : (m.wrByte pa b).traceSrc = m.traceSrc := rfl
@[simp] theorem Mod.wrByte_winCfg (m : Mod) (pa : Nat) (b : Byte) : (m.wrByte pa b).winCfg = m.winCfg := rfl
@[simp] theorem Mod.wrByte_traceSent (m : Mod) (pa : Nat) (b : Byte) : (m.wrByte pa b).traceSent = m.traceSent := rfl
@[simp] theorem Mod.wrByte_traceEp (m : Mod) (pa : Nat) (b : Byte) : (m.wrByte pa b).traceEp = m.traceEp := rfl
@[simp] theorem Mod.wrByte_flash (m : Mod) (pa : Nat) (b : Byte) : (m.wrByte pa b).flash = m.flash := rfl
@[simp] theorem Mod.wrByte_staging (m : Mod) (pa : Nat) (b : Byte) : (m.wrByte pa b).staging = m.staging := rfl
@[simp] theorem Mod.wrByte_boot (m : Mod) (pa : Nat) (b : Byte) : (m.wrByte pa b).boot = m.boot := rfl
@[simp] theorem Mod.wrByte_pcie (m : Mod) (pa : Nat) (b : Byte) : (m.wrByte pa b).pcie = m.pcie := rfl
@[simp] theorem Mod.wrByte_pwr (m : Mod) (pa : Nat) (b : Byte) : (m.wrByte pa b).pwr = m.pwr := rfl
@[simp] theorem Mod.wrByte_stop (m : Mod) (pa : Nat) (b : Byte) : (m.wrByte pa b).stop = m.stop := rfl
@[simp] theorem Mod.wrByte_freeN (m : Mod) (pa : Nat) (b : Byte) : (m.wrByte pa b).freeN = m.freeN := rfl
@[simp] theorem Mod.wrByte_out (m : Mod) (pa : Nat) (b : Byte) : (m.wrByte pa b).out = m.out := rfl

@[simp] theorem Mod.setPoison_regs (m : Mod) (w : Nat) (p : Bool) : (m.setPoison w p).regs = m.regs := rfl
@[simp] theorem Mod.setPoison_time (m : Mod) (w : Nat) (p : Bool) : (m.setPoison w p).time = m.time := rfl
@[simp] theorem Mod.setPoison_mem (m : Mod) (w : Nat) (p : Bool) : (m.setPoison w p).mem = m.mem := rfl
@[simp] theorem Mod.setPoison_slices (m : Mod) (w : Nat) (p : Bool) : (m.setPoison w p).slices = m.slices := rfl
@[simp] theorem Mod.setPoison_zones (m : Mod) (w : Nat) (p : Bool) : (m.setPoison w p).zones = m.zones := rfl
@[simp] theorem Mod.setPoison_flags (m : Mod) (w : Nat) (p : Bool) : (m.setPoison w p).flags = m.flags := rfl
@[simp] theorem Mod.setPoison_flagPois (m : Mod) (w : Nat) (p : Bool) : (m.setPoison w p).flagPois = m.flagPois := rfl
@[simp] theorem Mod.setPoison_tdt (m : Mod) (w : Nat) (p : Bool) : (m.setPoison w p).tdt = m.tdt := rfl
@[simp] theorem Mod.setPoison_regions (m : Mod) (w : Nat) (p : Bool) : (m.setPoison w p).regions = m.regions := rfl
@[simp] theorem Mod.setPoison_groupsPend (m : Mod) (w : Nat) (p : Bool) : (m.setPoison w p).groupsPend = m.groupsPend := rfl
@[simp] theorem Mod.setPoison_groupsLatch (m : Mod) (w : Nat) (p : Bool) : (m.setPoison w p).groupsLatch = m.groupsLatch := rfl
@[simp] theorem Mod.setPoison_streams (m : Mod) (w : Nat) (p : Bool) : (m.setPoison w p).streams = m.streams := rfl
@[simp] theorem Mod.setPoison_streamsLatch (m : Mod) (w : Nat) (p : Bool) : (m.setPoison w p).streamsLatch = m.streamsLatch := rfl
@[simp] theorem Mod.setPoison_watch (m : Mod) (w : Nat) (p : Bool) : (m.setPoison w p).watch = m.watch := rfl
@[simp] theorem Mod.setPoison_watchWaits (m : Mod) (w : Nat) (p : Bool) : (m.setPoison w p).watchWaits = m.watchWaits := rfl
@[simp] theorem Mod.setPoison_watchSeen (m : Mod) (w : Nat) (p : Bool) : (m.setPoison w p).watchSeen = m.watchSeen := rfl
@[simp] theorem Mod.setPoison_watchId (m : Mod) (w : Nat) (p : Bool) : (m.setPoison w p).watchId = m.watchId := rfl
@[simp] theorem Mod.setPoison_watchIn (m : Mod) (w : Nat) (p : Bool) : (m.setPoison w p).watchIn = m.watchIn := rfl
@[simp] theorem Mod.setPoison_queues (m : Mod) (w : Nat) (p : Bool) : (m.setPoison w p).queues = m.queues := rfl
@[simp] theorem Mod.setPoison_ctxs (m : Mod) (w : Nat) (p : Bool) : (m.setPoison w p).ctxs = m.ctxs := rfl
@[simp] theorem Mod.setPoison_parts (m : Mod) (w : Nat) (p : Bool) : (m.setPoison w p).parts = m.parts := rfl
@[simp] theorem Mod.setPoison_ports (m : Mod) (w : Nat) (p : Bool) : (m.setPoison w p).ports = m.ports := rfl
@[simp] theorem Mod.setPoison_fab (m : Mod) (w : Nat) (p : Bool) : (m.setPoison w p).fab = m.fab := rfl
@[simp] theorem Mod.setPoison_early (m : Mod) (w : Nat) (p : Bool) : (m.setPoison w p).early = m.early := rfl
@[simp] theorem Mod.setPoison_collWait0 (m : Mod) (w : Nat) (p : Bool) : (m.setPoison w p).collWait0 = m.collWait0 := rfl
@[simp] theorem Mod.setPoison_collWait1 (m : Mod) (w : Nat) (p : Bool) : (m.setPoison w p).collWait1 = m.collWait1 := rfl
@[simp] theorem Mod.setPoison_dirty (m : Mod) (w : Nat) (p : Bool) : (m.setPoison w p).dirty = m.dirty := rfl
@[simp] theorem Mod.setPoison_flog (m : Mod) (w : Nat) (p : Bool) : (m.setPoison w p).flog = m.flog := rfl
@[simp] theorem Mod.setPoison_flogSeq (m : Mod) (w : Nat) (p : Bool) : (m.setPoison w p).flogSeq = m.flogSeq := rfl
@[simp] theorem Mod.setPoison_losses (m : Mod) (w : Nat) (p : Bool) : (m.setPoison w p).losses = m.losses := rfl
@[simp] theorem Mod.setPoison_hang (m : Mod) (w : Nat) (p : Bool) : (m.setPoison w p).hang = m.hang := rfl
@[simp] theorem Mod.setPoison_dump (m : Mod) (w : Nat) (p : Bool) : (m.setPoison w p).dump = m.dump := rfl
@[simp] theorem Mod.setPoison_capture (m : Mod) (w : Nat) (p : Bool) : (m.setPoison w p).capture = m.capture := rfl
@[simp] theorem Mod.setPoison_traceSrc (m : Mod) (w : Nat) (p : Bool) : (m.setPoison w p).traceSrc = m.traceSrc := rfl
@[simp] theorem Mod.setPoison_winCfg (m : Mod) (w : Nat) (p : Bool) : (m.setPoison w p).winCfg = m.winCfg := rfl
@[simp] theorem Mod.setPoison_traceSent (m : Mod) (w : Nat) (p : Bool) : (m.setPoison w p).traceSent = m.traceSent := rfl
@[simp] theorem Mod.setPoison_traceEp (m : Mod) (w : Nat) (p : Bool) : (m.setPoison w p).traceEp = m.traceEp := rfl
@[simp] theorem Mod.setPoison_flash (m : Mod) (w : Nat) (p : Bool) : (m.setPoison w p).flash = m.flash := rfl
@[simp] theorem Mod.setPoison_staging (m : Mod) (w : Nat) (p : Bool) : (m.setPoison w p).staging = m.staging := rfl
@[simp] theorem Mod.setPoison_boot (m : Mod) (w : Nat) (p : Bool) : (m.setPoison w p).boot = m.boot := rfl
@[simp] theorem Mod.setPoison_pcie (m : Mod) (w : Nat) (p : Bool) : (m.setPoison w p).pcie = m.pcie := rfl
@[simp] theorem Mod.setPoison_pwr (m : Mod) (w : Nat) (p : Bool) : (m.setPoison w p).pwr = m.pwr := rfl
@[simp] theorem Mod.setPoison_stop (m : Mod) (w : Nat) (p : Bool) : (m.setPoison w p).stop = m.stop := rfl
@[simp] theorem Mod.setPoison_freeN (m : Mod) (w : Nat) (p : Bool) : (m.setPoison w p).freeN = m.freeN := rfl
@[simp] theorem Mod.setPoison_out (m : Mod) (w : Nat) (p : Bool) : (m.setPoison w p).out = m.out := rfl

end Sys2Proof.Machine
end

