-- ==== Sys2Proof/Laws/Deliver.lean ====
section
/-! SUPPORT. What each gate before a command lets through, what the issue of a record does, and what follows a command: cited in
place of unfolding them. -/

namespace Sys2Proof.Machine

/-- While the engines run an engine event happens. -/
theorem Mod.engine_of_works {m : Mod} (h : m.works = true) (f : Mod → Mod) : m.engine f = (f m).settle := by
  simp [Mod.engine, h]

/-- While the engines stand still it does not. -/
theorem Mod.engine_of_not_works {m : Mod} (h : m.works = false) (f : Mod → Mod) : m.engine f = m := by
  simp [Mod.engine, h]

theorem Mod.always_of_powered {m : Mod} (h : m.powered = true) (f : Mod → Mod) : m.always f = (f m).settle := by
  simp [Mod.always, h]

theorem Mod.powered_of_works {m : Mod} (h : m.works = true) : m.powered = true := by
  simp only [Mod.works, Bool.and_eq_true] at h; exact h.1

theorem Mod.stopped_of_works {m : Mod} (h : m.works = true) : m.stopped = false := by
  simp only [Mod.works, Bool.and_eq_true, Bool.not_eq_true'] at h; exact h.2

theorem Mod.link_of_open {m : Mod} (h : m.linkOpen = true) (f : Mod → Mod) : m.link f = (f m).settle := by
  simp only [Mod.linkOpen, Bool.and_eq_true, Bool.not_eq_true'] at h
  simp [Mod.link, Mod.always, h.1, h.2]

/-- A host write that reaches its block takes effect, and what waits goes on. -/
theorem Mod.host_of_open {m : Mod} {blk : Nat} (h : m.hostOpen blk = true) (f : Mod → Mod) :
    m.host blk f = (f m).settle := by
  simp only [Mod.hostOpen, Bool.and_eq_true, Bool.not_eq_true', decide_eq_true_eq, Bool.or_eq_true] at h
  obtain ⟨⟨⟨⟨h1, h2⟩, h3⟩, h4⟩, h5⟩ := h
  have h6 : ¬ m.get F.BOOT_STAT_step < 5 := by omega
  have h7 : (m.stopped && !stopBlocks.contains blk) = false := by
    rcases h5 with h5 | h5 <;> rw [h5] <;> simp
  simp only [Mod.host, h1, h2, h3, h6, h7, Bool.not_true, Bool.or_self, if_false, Bool.false_eq_true]

/-- A doorbell write that reaches a queue acts on it. -/
theorem Mod.doorbell_of_open {m : Mod} {d : Door} {i : Nat} (h : m.doorOpen d i = true) (f : Mod → Nat → Mod) :
    m.doorbell d f = (f m i).settle := by
  simp only [Mod.doorOpen, Bool.and_eq_true, Bool.not_eq_true'] at h
  obtain ⟨⟨⟨⟨h1, h2⟩, h3⟩, h4⟩, h5⟩ := h
  cases d with
  | pf j =>
    have : j.val = i := by simpa using h5
    subst this
    simp [Mod.doorbell, Mod.atDoor, h1, h2, h3, h4]
  | vf v page =>
    simp only [Bool.and_eq_true, decide_eq_true_eq] at h5
    obtain ⟨⟨h5, h6⟩, h7⟩ := h5
    unfold Mod.doorbell Mod.atDoor
    simp only [h1, h2, h3, h4, h5, h6, decide_true, Bool.not_true, Bool.or_self, Bool.and_self, if_true, if_false,
      Bool.false_eq_true]
    generalize List.find? _ _ = o at h7 ⊢
    cases o with
    | none => cases h7
    | some c =>
      have : i = 16 * c + page.val := by simpa using h7
      rw [this]

/-- A record issues only under its own opcode. -/
theorem Mod.opcode_of_issues {m : Mod} {i code : Nat} {chk : Mod → W1024 → List Cap → Status} {r : W1024} {caps : List Cap}
    (h : m.issues i code chk r caps = true) : Rc.opcode r = code := by
  simp only [Mod.issues, Bool.and_eq_true, beq_iff_eq] at h
  exact h.1.1.1.1.2

/-- A record that issues is marked issued, and its operation is carried out. -/
theorem Mod.issue_of_issues {m : Mod} {i code : Nat} {chk : Mod → W1024 → List Cap → Status} {r : W1024} {caps : List Cap}
    (h : m.issues i code chk r caps = true) (run : Mod → W1024 → List Cap → Mod) :
    m.issue i code chk run = run (m.begun i code r caps) r caps := by
  simp only [Mod.issues, Bool.and_eq_true, beq_iff_eq, Bool.not_eq_true'] at h
  obtain ⟨⟨⟨⟨⟨h1, h2⟩, h3⟩, h4⟩, h5⟩, h6⟩ := h
  unfold Mod.issue Mod.begun
  simp only [h1, h2, ne_eq, not_true_eq_false, if_false]
  split at h3
  · rename_i l hl
    have : l = caps := by simpa using h3
    subst this
    simp [hl, h4, h5, h6]
  · cases h3

end Sys2Proof.Machine
end

