-- ==== Sys2Proof/Laws/Memory.lean ====
section
/-! SUPPORT. Laws of module memory: what a store changes and what it leaves, that a byte reads as the last one stored to its
place, and that every operation on memory keeps its canonical form. -/

namespace Sys2Proof.Machine

/-- The zone map alone places an address. -/
theorem Mod.key_congr {m k : Mod} (h : m.zones = k.zones) (pa : Nat) : m.key pa = k.key pa := by
  have hk : ∀ z, m.zoneKind z = k.zoneKind z := fun z => by simp only [Mod.zoneKind, h]
  have hp : ∀ z, m.zonePlace z = k.zonePlace z := fun z => by simp only [Mod.zonePlace, h]
  have hs : m.stackOf pa = k.stackOf pa := by simp only [Mod.stackOf, hk, hp]
  have hb : ∀ s z, m.zoneBase s z = k.zoneBase s z := by
    intro s z
    induction z with
    | zero => rfl
    | succ z ih => simp only [Mod.zoneBase, ih, hk, hp]
  simp only [Mod.key, Mod.localOf, hs, hb, hk]

/-- The stores of a list of bytes as operations on the table of memory alone. -/
def storeAll (m : Mod) (t : Tab Byte) (ws : List (Nat × Byte)) : Tab Byte :=
  ws.foldl (fun t w => Tab.set 0 t (m.key w.1) w.2) t

theorem foldl_wrByte (ws : List (Nat × Byte)) : ∀ m : Mod,
    ws.foldl (fun m w => m.wrByte w.1 w.2) m = { m with mem := storeAll m m.mem ws } := by
  induction ws with
  | nil => intro m; rfl
  | cons w ws ih =>
    intro m
    have hk : ∀ pa, (m.wrByte w.1 w.2).key pa = m.key pa := Mod.key_congr (m := m.wrByte w.1 w.2) rfl
    simp only [List.foldl_cons, ih, storeAll, hk]
    rfl

theorem foldl_setPoison (c : Nat × Byte → Mod → Bool) (k : Mod) (ws : List (Nat × Byte)) : ∀ m : Mod, m.zones = k.zones →
    ∃ p, ws.foldl (fun m w => if c w m then m.setPoison (m.key w.1 / 8) false else m) m = { m with poison := p } := by
  induction ws with
  | nil => intro m _; exact ⟨m.poison, rfl⟩
  | cons w ws ih =>
    intro m h
    simp only [List.foldl_cons]
    split
    · obtain ⟨p, hp⟩ := ih (m.setPoison (m.key w.1 / 8) false) h
      exact ⟨p, by rw [hp]; rfl⟩
    · exact ih m h

/-- A store changes memory as the bytes say, poison, and nothing else. -/
theorem Mod.wrList_eq (m : Mod) (ws : List (Nat × Byte)) :
    ∃ p, m.wrList ws = { m with mem := storeAll m m.mem ws, poison := p } := by
  unfold Mod.wrList
  simp only [foldl_wrByte]
  obtain ⟨p, hp⟩ := foldl_setPoison
    (fun w m => w.1 % 8 = 0 && m.poisoned w.1 && (List.range 8).all (fun j => ws.any fun x => x.1 == w.1 + j))
    m ws { m with mem := storeAll m m.mem ws } rfl
  exact ⟨p, hp⟩

@[simp] theorem Mod.wrList_mem (m : Mod) (ws : List (Nat × Byte)) : (m.wrList ws).mem = storeAll m m.mem ws := by
  obtain ⟨p, h⟩ := m.wrList_eq ws; rw [h]

/-- What a store leaves as it was, but for memory and poison: the module is the same with its memory and poison put back. -/
theorem Mod.wrList_rest (m : Mod) (ws : List (Nat × Byte)) : { m.wrList ws with mem := m.mem, poison := m.poison } = m := by
  obtain ⟨p, h⟩ := m.wrList_eq ws; rw [h]

/-- Stores keep the canonical form. -/
theorem wf_storeAll (m : Mod) (ws : List (Nat × Byte)) : ∀ {t : Tab Byte}, Tab.wf 0 t = true → Tab.wf 0 (storeAll m t ws) = true := by
  induction ws with
  | nil => intro t h; exact h
  | cons w ws ih => intro t h; exact ih (Tab.wf_set h _ _)

theorem Mod.wrByte_memWf {m : Mod} (h : m.memWf = true) (pa : Nat) (b : Byte) : (m.wrByte pa b).memWf = true := Tab.wf_set h _ _

theorem Mod.wrList_memWf {m : Mod} (h : m.memWf = true) (ws : List (Nat × Byte)) : (m.wrList ws).memWf = true := by
  simp only [Mod.memWf, Mod.wrList_mem]; exact wf_storeAll m ws h

/-! ### What an access of a slice can do -/

/-- Only the slices differ, and registers whose offset `P` holds for. -/
def SliceOnly (P : Nat → Prop) (m k : Mod) : Prop :=
  ∃ r s, k = { m with regs := r, slices := s } ∧ ∀ reg rst, ¬ P reg → k.regAt reg rst = m.regAt reg rst

theorem SliceOnly.refl {P : Nat → Prop} (m : Mod) : SliceOnly P m m := ⟨m.regs, m.slices, rfl, fun _ _ _ => rfl⟩

theorem SliceOnly.trans {P : Nat → Prop} {a b c : Mod} (h : SliceOnly P a b) (g : SliceOnly P b c) : SliceOnly P a c := by
  obtain ⟨r, s, rfl, h⟩ := h; obtain ⟨r', s', rfl, g⟩ := g
  exact ⟨r', s', rfl, fun x y n => (g x y n).trans (h x y n)⟩

theorem SliceOnly.zones {P : Nat → Prop} {m k : Mod} (h : SliceOnly P m k) : k.zones = m.zones := by
  obtain ⟨r, s, rfl, -⟩ := h; rfl

theorem SliceOnly.each {P : Nat → Prop} {f : Mod → Nat → Mod} (l : List Nat) :
    ∀ m, (∀ k x, k.zones = m.zones → x ∈ l → SliceOnly P k (f k x)) → SliceOnly P m (m.each l f) := by
  induction l with
  | nil => exact fun m _ => .refl m
  | cons x l ih =>
    intro m h
    have h1 := h m x rfl (by simp)
    exact h1.trans (ih (f m x) fun k y hk hy => h k y (hk.trans h1.zones) (by simp [hy]))

theorem SliceOnly.ite {P : Nat → Prop} {m a b : Mod} {c : Prop} [Decidable c] (ha : SliceOnly P m a) (hb : SliceOnly P m b) :
    SliceOnly P m (if c then a else b) := by
  split
  · exact ha
  · exact hb

theorem sliceOnly_slices {P : Nat → Prop} (m : Mod) (s : Tab WaySet) : SliceOnly P m { m with slices := s } :=
  ⟨m.regs, s, rfl, fun _ _ _ => rfl⟩

theorem sliceOnly_set {P : Nat → Prop} (m : Mod) (f : Fld) (i n : Nat) (h : P (f.base + f.stride * i)) :
    SliceOnly P m (m.set f i n) :=
  ⟨(m.set f i n).regs, m.slices, rfl, fun reg _ hr => by
    have hn : reg ≠ f.base + f.stride * i := fun e => hr (e ▸ h)
    exact congrArg BitVec.toNat (Tab.get_set_ne m.regs hn _)⟩

theorem sliceOnly_count {P : Nat → Prop} (m : Mod) (f : Fld) (i n : Nat) (h : P (f.base + f.stride * i)) :
    SliceOnly P m (m.count f i n) := sliceOnly_set _ _ _ _ h

/-- Every register of slice `p` is one of `P`. -/
def HoldsSlice (P : Nat → Prop) (p : Nat) : Prop := ∀ reg, sliceReg p reg = true → P reg

theorem HoldsSlice.waste {P : Nat → Prop} {p : Nat} (h : HoldsSlice P p) : P (F.MEM_WASTE_bytes.base + F.MEM_WASTE_bytes.stride * p) :=
  h _ (by simp [sliceReg])

theorem HoldsSlice.gate {P : Nat → Prop} {p : Nat} (h : HoldsSlice P p) :
    P (F.MEM_STACK_STAT_gated.base + F.MEM_STACK_STAT_gated.stride * p) := h _ (by simp [sliceReg])

theorem HoldsSlice.word {P : Nat → Prop} {p : Nat} (h : HoldsSlice P p) (k : Nat) (hk : k < 8) :
    P (F.CNT_MOD_count.base + F.CNT_MOD_count.stride * (128 + 8 * p + k)) := by
  refine h _ ?_
  simp only [sliceReg, Bool.or_eq_true, List.any_eq_true]
  exact .inr ⟨k, by simpa using hk, by simp⟩

theorem sliceOnly_moved {P : Nat → Prop} (m : Mod) (p : Nat) (o : Bool) (n x : Nat) (h : HoldsSlice P p) :
    SliceOnly P m (m.moved p o n x) :=
  (sliceOnly_count _ _ _ _ (h.word (b2n o) (by cases o <;> decide))).trans (sliceOnly_count _ _ _ _ h.waste)

theorem sliceOnly_modLine {P : Nat → Prop} (m : Mod) (p l : Nat) (f : Line → Line) : SliceOnly P m (m.modLine p l f) := by
  unfold Mod.modLine
  dsimp only
  split
  · exact sliceOnly_slices _ _
  · exact .refl m

theorem sliceOnly_writeBack {P : Nat → Prop} (m : Mod) (p l : Nat) (h : HoldsSlice P p) : SliceOnly P m (m.writeBack p l) := by
  unfold Mod.writeBack
  dsimp only
  split
  · exact .refl m
  · split
    · exact (sliceOnly_moved _ _ _ _ _ h).trans (sliceOnly_modLine _ _ _ _)
    · exact (((sliceOnly_moved _ _ _ _ _ h).trans (sliceOnly_moved _ _ _ _ _ h)).trans (sliceOnly_modLine _ _ _ _)).trans
        (sliceOnly_modLine _ _ _ _)

theorem sliceOnly_allocate {P : Nat → Prop} (m : Mod) (p l : Nat) (fine : Bool) (acc : Acc) (h : HoldsSlice P p) :
    SliceOnly P m (m.allocate p l fine acc) := by
  unfold Mod.allocate
  dsimp only
  split
  · exact .refl m
  · exact SliceOnly.trans (.ite (.refl m) (sliceOnly_writeBack _ _ _ h)) (sliceOnly_slices _ _)

theorem sliceOnly_granule {P : Nat → Prop} (m : Mod) (p g a n : Nat) (fine : Bool) (acc : Acc) (h : HoldsSlice P p) :
    SliceOnly P m (m.granule p g a n fine acc) := by
  have alloc (f : Bool) (l : List Nat) (m : Mod) : SliceOnly P m (m.each l fun m l => m.allocate p l f acc) :=
    .each l m fun m l _ _ => sliceOnly_allocate m p l f acc h
  have go (k : Mod) (x y : Nat) (l l' : List Nat) (f : Mod → Nat → Mod) (hf : ∀ m x, SliceOnly P m (f m x)) :
      SliceOnly P k ((((k.count F.CNT_MOD_count (132 + 8 * p) x).count F.CNT_MOD_count (133 + 8 * p) y).each l
        fun m l => m.allocate p l fine acc).each l' f) := by
    have h4 := h.word 4 (by decide)
    have h5 := h.word 5 (by decide)
    rw [show 128 + 8 * p + 4 = 132 + 8 * p by omega] at h4
    rw [show 128 + 8 * p + 5 = 133 + 8 * p by omega] at h5
    exact (((sliceOnly_count _ _ _ _ h4).trans (sliceOnly_count _ _ _ _ h5)).trans (alloc _ _ _)).trans
      (.each _ _ fun m x _ _ => hf m x)
  unfold Mod.granule
  dsimp only
  refine SliceOnly.trans (.ite ?_ (go m _ _ _ _ _ fun m l => sliceOnly_moved _ _ _ _ _ h))
    (.each _ _ fun m l _ _ => (sliceOnly_modLine m p l _).trans (sliceOnly_slices _ _))
  exact (((go m _ _ _ _ _ fun m l => sliceOnly_moved _ _ _ _ _ h).trans (alloc _ _ _)).trans
    (.each _ _ fun m l _ _ => sliceOnly_modLine m p l _)).trans (sliceOnly_moved _ _ _ _ _ h)

/-- An access changes the slices and the registers that count and wake at the slices it goes through, and nothing else: in
particular no byte of memory and no poison. -/
theorem sliceOnly_reach {P : Nat → Prop} (m : Mod) (fine : Bool) (acc : Acc) (pa n : Nat)
    (h : ∀ j, j < n → HoldsSlice P (m.stackOf (256 * ((pa + j) / 256)))) : SliceOnly P m (m.reach fine acc pa n) := by
  unfold Mod.reach
  refine SliceOnly.each _ _ fun k g hk hg => ?_
  have hs : k.stackOf (256 * g) = m.stackOf (256 * g) := by simp only [Mod.stackOf, Mod.zoneKind, Mod.zonePlace, hk]
  have hp : HoldsSlice P (k.stackOf (256 * g)) := by
    split at hg
    · simp at hg
    · rename_i hn
      simp only [List.mem_map, List.mem_range, ceilDiv] at hg
      obtain ⟨x, hx, rfl⟩ := hg
      rw [hs]
      have hj := h (256 * (pa / 256 + x) - pa) (by omega)
      rwa [show (pa + (256 * (pa / 256 + x) - pa)) / 256 = pa / 256 + x by omega] at hj
  dsimp only
  split
  · exact .refl k
  · have hw := hp.word (6 + b2n (acc != .rd)) (by cases acc <;> decide)
    rw [show 128 + 8 * k.stackOf (256 * g) + (6 + b2n (acc != .rd)) = 134 + 8 * k.stackOf (256 * g) + b2n (acc != .rd) by omega]
      at hw
    exact ((sliceOnly_set _ _ _ _ hp.gate).trans (sliceOnly_count _ _ _ _ hw)).trans (sliceOnly_granule _ _ _ _ _ _ _ hp)

@[simp] theorem Mod.reach_mem (m : Mod) (fine : Bool) (acc : Acc) (pa n : Nat) : (m.reach fine acc pa n).mem = m.mem := by
  obtain ⟨r, s, h, -⟩ := sliceOnly_reach (P := fun _ => True) m fine acc pa n (fun _ _ _ _ => trivial); rw [h]
@[simp] theorem Mod.reach_poison (m : Mod) (fine : Bool) (acc : Acc) (pa n : Nat) : (m.reach fine acc pa n).poison = m.poison := by
  obtain ⟨r, s, h, -⟩ := sliceOnly_reach (P := fun _ => True) m fine acc pa n (fun _ _ _ _ => trivial); rw [h]
@[simp] theorem Mod.reach_zones (m : Mod) (fine : Bool) (acc : Acc) (pa n : Nat) : (m.reach fine acc pa n).zones = m.zones := by
  obtain ⟨r, s, h, -⟩ := sliceOnly_reach (P := fun _ => True) m fine acc pa n (fun _ _ _ _ => trivial); rw [h]

@[simp] theorem Mod.wr_mem (m : Mod) (pa : Nat) (l : List Byte) (fine : Bool) :
    (m.wr pa l fine).mem = storeAll m m.mem (atAddr pa l) := by
  simp [Mod.wr]

theorem Mod.wr_memWf {m : Mod} (h : m.memWf = true) (pa : Nat) (l : List Byte) (fine : Bool) : (m.wr pa l fine).memWf = true := by
  simp only [Mod.memWf, Mod.wr_mem]; exact wf_storeAll m _ h

theorem Mod.poisonFill_memWf {m : Mod} (h : m.memWf = true) (p : Nat) : (m.poisonFill p).memWf = true := Tab.wf_clear h _ _

/-- A place that no byte is stored to reads as before. -/
theorem get_storeAll_ne (m : Mod) (k : Nat) (ws : List (Nat × Byte)) :
    ∀ t : Tab Byte, (∀ w ∈ ws, m.key w.1 ≠ k) → Tab.get 0 (storeAll m t ws) k = Tab.get 0 t k := by
  induction ws with
  | nil => intro t _; rfl
  | cons w ws ih =>
    intro t h
    have h1 := ih (Tab.set 0 t (m.key w.1) w.2) fun x hx => h x (by simp [hx])
    have h2 : m.key w.1 ≠ k := h w (by simp)
    exact h1.trans (Tab.get_set_ne t h2.symm w.2)

/-- A place reads as the last byte stored to it. -/
theorem get_storeAll_last (m : Mod) (w : Nat × Byte) (pre post : List (Nat × Byte)) (t : Tab Byte)
    (h : ∀ x ∈ post, m.key x.1 ≠ m.key w.1) : Tab.get 0 (storeAll m t (pre ++ w :: post)) (m.key w.1) = w.2 := by
  have e : storeAll m t (pre ++ w :: post) = storeAll m (Tab.set 0 (storeAll m t pre) (m.key w.1) w.2) post := by
    simp [storeAll, List.foldl_append]
  rw [e, get_storeAll_ne m _ post _ h, Tab.get_set_self]

theorem mem_atAddr {pa : Nat} {l : List Byte} {w : Nat × Byte} (h : w ∈ atAddr pa l) :
    ∃ j, j < l.length ∧ w.1 = pa + j := by
  simp only [atAddr, List.mem_map] at h
  obtain ⟨x, hx, rfl⟩ := h
  exact ⟨x.1, by simpa using List.mem_range.1 (List.of_mem_zip hx).1, rfl⟩

end Sys2Proof.Machine
end

