-- ==== Sys2Proof/Laws/Regs.lean ====
section
/-! SUPPORT. Laws of register fields: a field reads as the value last written to it, and a write leaves every other field. -/

namespace Sys2Proof.Machine

/-- The field just written reads as the value, cut to its width. -/
theorem Mod.get_set_self (m : Mod) (f : Fld) (i v : Nat) (h : f.lo + f.len ≤ 64) :
    (m.set f i v).get f i = v % 2 ^ f.len := by
  simp only [Mod.get, Mod.set, Mod.regAt, Mod.setRegAt, Tab.get_set_self, BitVec.toNat_ofNat]
  exact bits_setBits _ _ _ _ h

/-- A field of the same register that shares no bit with the one written reads as before. -/
theorem Mod.get_set_same (m : Mod) (f g : Fld) (i j v : Nat) (hb : f.base + f.stride * i = g.base + g.stride * j)
    (hr : f.reset = g.reset) (h : g.lo + g.len ≤ 64) (hd : g.lo + g.len ≤ f.lo ∨ f.lo + f.len ≤ g.lo) :
    (m.set f i v).get g j = m.get g j := by
  simp only [Mod.get, Mod.set, Mod.regAt, Mod.setRegAt, ← hb, ← hr, Tab.get_set_self, BitVec.toNat_ofNat]
  exact bits_setBits_ne _ _ _ _ _ _ h hd

/-- Two registers that lie apart do not touch each other. -/
theorem Mod.get_set_ne (m : Mod) (f g : Fld) (i j v : Nat) (hb : f.base + f.stride * i ≠ g.base + g.stride * j) :
    (m.set f i v).get g j = m.get g j := by
  simp only [Mod.get, Mod.set, Mod.regAt, Mod.setRegAt]
  rw [Tab.get_set_ne _ (fun e => hb e.symm)]

end Sys2Proof.Machine
end

