-- ==== Sys2Proof/Machine/View.lean ====
section
/-! DEFINITION. What a read of BAR0 or of a doorbell page returns (R8, R11, R12), with what the read itself records. A read is no
command of the table, so no step makes one; these functions say what the state shows to host software. -/

namespace Sys2Proof.Machine

/-- Contents of a register whose bits are kept elsewhere than under its own offset: `i` and `k` are its indexes. -/
def Mod.regShows (m : Mod) (r : Reg) (i k : Nat) : Option Nat :=
  if r.base = R.FLG_VAL.base then some (m.flagRead i).toNat
  else if r.base = R.Q_STAT.base then some (m.qStat i)
  else if r.base = R.TIME_NOW.base then some m.time
  else if r.base = R.LNK_LAT.base then some (Config.linkLat (m.get F.LNK_STAT_mode i)).toNat
  else if r.base = R.CNT_CORE.base then some (m.coreRead i k)
  else if r.base = R.CNT_MOD.base then some (m.cntRead i)
  else if r.base = R.UPD_GROUP.base then some (bits (Tab.get 0 m.groupsLatch i).toNat (64 * k) 64)
  else if r.base = R.UPD_STREAM.base then some (bits (Tab.get 0 m.streams i).toNat (64 * k) 64)
  else if r.base = R.WATCH_ENTRY.base then some (bits (Tab.get 0 m.watch i).toNat (64 * k) 64)
  else if r.base = R.SEC_STAT.base then some ((m.set F.SEC_STAT_window_s 0 m.windowLeft).regAt R.SEC_STAT.base R.SEC_STAT.reset)
  else if r.base = R.FLT_PART_RESETS.base then
    some ((m.set F.FLT_PART_RESETS_window i (min 2 (m.faultWindow i).length)).regAt
      (R.FLT_PART_RESETS.base + R.FLT_PART_RESETS.stride * i) R.FLT_PART_RESETS.reset)
  else none

/-- The value that the register at offset `off` shows: fields that are only written read 0 (Table 0.4). -/
def Mod.regShow (m : Mod) (r : Reg) (off i k : Nat) : Nat :=
  match m.regShows r i k with
  | some v => v
  | none =>
    let v := m.regAt off r.reset
    if r.base = R.BOOT_CMD.base then setBits v 32 27 0 else v

/-- Eight bytes of a read-only window (R158, R388): the descriptor table, the fault log, the page of the dump. -/
def Mod.windowShow (m : Mod) (off : Nat) : Option Nat :=
  let tdt := Blk.TDT * 2 ^ 16
  let flt := Blk.FLT * 2 ^ 16 + 0x8000
  let dump := Blk.DUMP * 2 ^ 16 + 0x8000
  if tdt ≤ off && off < tdt + 0x780000 then
    some (bits (Tab.get 0 m.tdt ((off - tdt) / 64)).toNat (64 * ((off - tdt) % 64 / 8)) 64)
  else if flt ≤ off && off < flt + 0x8000 then
    some (bits (Tab.get 0 m.flog ((off - flt) / 32)).toNat (64 * ((off - flt) % 32 / 8)) 64)
  else if dump ≤ off && off < dump + 0x8000 then
    some (leNat ((List.range 8).map fun j => Tab.get 0 m.dump (0x8000 * m.get F.DUMP_WIN_SEL_page + (off - dump) / 8 * 8 + j)))
  else none

/-- A 32-bit read: of a window, of a 32-bit register, of half of a 64-bit register, or of nothing (R11, R12). -/
def Mod.show32 (m : Mod) (off : Nat) : Nat :=
  match m.windowShow off with
  | some v => bits v (8 * (off % 8)) 32
  | none => match regFind off with
    | some (r, i, k) => m.regShow r off i k % 2 ^ 32
    | none => if off % 8 ≠ 4 then 0 else
      match regFind (off - 4) with
      | some (r, i, k) => if r.bytes = 8 then m.regShow r (off - 4) i k / 2 ^ 32 else 0
      | none => 0

/-- An aligned read of 4 or 8 bytes. A 64-bit register is read as it stands at one moment. -/
def Mod.showBar0 (m : Mod) (off size : Nat) : Nat :=
  if size = 4 then m.show32 off else m.show32 off + m.show32 (off + 4) * 2 ^ 32

/-- A read of `size` bytes of BAR0 (R11, R12, R371, R415, R427): the answer, none where no link carries it, and the module after
it: all ones where the register does not answer. A global stop leaves every register as it was, so a read of a stopped block
gives its frozen value. -/
def Mod.readBar0 (m : Mod) (off size : Nat) : Option Nat × Mod :=
  let b := blockOf off
  if !m.powered || !m.pcie.link || decide (2 ^ 26 ≤ off) then (none, m)
  else if !accessOk off size then (some (2 ^ (8 * size) - 1), m.badAccess off)
  else if m.inRecovery && !recoveryBlocks.contains b then (some 0, m)
  else if (!m.inRecovery && decide (m.get F.BOOT_STAT_step < 5)) || m.muteAt off || (size == 8 && m.muteAt (off + 4)) then
    (some (2 ^ (8 * size) - 1), m.noResponse off)
  else (some (m.showBar0 off size), m)

/-- 32 bits of the doorbell page of queue `i` (R146). -/
def Mod.doorShow (m : Mod) (i off : Nat) : Nat :=
  match off with
  | 0x00 => (m.queue i).tail.toNat
  | 0x08 => (m.queue i).head.toNat
  | 0x10 => m.qStat i % 2 ^ 32
  | 0x14 => m.qStat i / 2 ^ 32
  | 0x20 => (m.queue i).flagSel.toNat
  | _ => 0

/-- A read of the doorbell page of queue `i` (R146, R418): `DB_FLAG_VAL` gives the selected flag, or all ones with a record where
the context has no such flag. -/
def Mod.readPage (m : Mod) (i off size : Nat) : Nat × Mod :=
  let x := (m.queue i).flagSel.toNat
  let c := qCtx i
  if !m.on F.BOOT_STAT_ready then (0, m)
  else if !accessOk off size then (2 ^ (8 * size) - 1, m.refuse ST_BAD_ACCESS Blk.Q off)
  else if 0x28 ≤ off && off < 0x38 && !m.flagIn c x then (2 ^ (8 * size) - 1, m.refuseQueue ST_BAD_FLAG Blk.FLG i)
  else if off = 0x28 || off = 0x2C then
    (bits (m.flagRead (m.ctxFlag c x)).toNat (8 * (off - 0x28)) (8 * size), m)
  else (if size = 4 then m.doorShow i off else m.doorShow i off + m.doorShow i (off + 4) * 2 ^ 32, m)

end Sys2Proof.Machine
end

