-- ==== Sys2Proof/WellFormed.lean ====
section
/-! DEFINITION. Which commands are well formed: the operands of a command lie in the ranges that the things they name have. -/

namespace Sys2Proof

/-- A memory error names one of the 16 × 2^33 words, or an entry that its table has, and at most 64 bits (R219, R362). -/
def MemErr.wf : MemErr → Bool
  | .word w b | .slice w b | .writeBack w b => decide (w < 2 ^ 37) && decide (b ≤ 64)
  | .scratch _ b | .flag _ _ b | .control _ b => decide (b ≤ 64)
  | .table t e _ b _ => decide (b ≤ 64) && decide (e < match t with
      | .desc => 122880 | .region => 65536 | .stream => 4096 | .group => 256 | .watch => 256 | .remap => 4096 | .detour => 256)

/-- Every memory error of a list is well formed. -/
def errsWf (l : List MemErr) : Bool := l.all MemErr.wf

/-- A flit has 256 bytes (R243). -/
def flitWf (l : List Byte) : Bool := l.length == 256

/-- A packet's byte payload has 1 to 65,536 bytes, as many as its header says (R250). -/
def Packet.wf (p : Packet) : Bool :=
  match p.payload with
  | .bytes l => decide (l.length ≤ 65536) && l.length == p.hdr.len.toNat + 1
  | _ => true

/-- A register access moves at least one byte; one of another size than R11 accepts is well formed, and refused by R11. -/
def sizeWf (n : Nat) : Bool := decide (1 ≤ n)

/-- The well-formedness of a command. -/
def Instr.wf : Instr → Bool
  | .matmul _ e | .bmatmul _ e | .conv _ e | .attn _ e | .eltwise _ e | .reduce _ e | .norm _ e | .softmax _ e
  | .copy _ e | .gather _ e | .scatter _ e | .transpose _ e | .hostXfer _ e | .scatterReduce _ e | .atomicCas _ e
  | .allReduce _ e | .reduceScatter _ e | .allGather _ e | .allToAll _ e | .broadcast _ e | .reduceUpdate _ e
  | .fallback _ e | .sliceScrub _ e _ => errsWf e
  | .bar4Read off len e => errsWf e && decide (1 ≤ len) && decide (off + len ≤ 2 ^ 40)
  | .bar4Write off l => decide (1 ≤ l.length) && decide (off + l.length ≤ 2 ^ 40)
  | .bar4Atomicop kind _ off _ _ => decide (kind ≠ 3) && decide (off < 2 ^ 40)
  | .bar4Resize k => decide (28 ≤ k) && decide (k ≤ 40)
  | .patrolScrubRead _ b _ => decide (b ≤ 64)
  | .dataFlitReceive _ l | .nakReceive _ l _ | .keepaliveReceive _ l | .idleFlitReceive _ l => flitWf l
  | .packetReceive _ _ _ p | .linkNoticeReceive _ p | .discoveryReceive _ p | .routeBroadcastReceive _ p
  | .collReadyReceive _ p | .collDataReceive _ p | .gatherRowsReceive _ p | .spanReceive _ p | .castDataReceive _ p
  | .castDeltaReceive _ p | .castRecReceive _ p | .castDoneReceive _ p | .castAckReceive _ p | .castFetchReceive _ p
  | .watchDataReceive _ p | .watchAckReceive _ p => p.wf
  | .registerWrite _ size _ => sizeWf size
  | .msixUnmask fn vec => decide (vec < if fn.isNone then 8 else 4)
  | .dieTempSample t => t.length == 6
  | .challenge _ slot _ nonce => decide (slot < 8) && nonce.length == 32
  | .getMeasurements _ _ _ nonce slot => decide (slot < 8) && nonce.length == 32
  | .getCertificate _ slot _ _ => decide (slot < 8)
  | _ => true

end Sys2Proof
end

