-- ==== Sys2Proof/Tests/Slice0.lean ====
section
/-! SUPPORT. Tests: the ill-formed terms that the checks refuse, one state per statement (and per clause where a statement has
several) that meets its hypotheses, and small one-step tests whose expected values come from the rules cited. -/

namespace Sys2Proof.Tests

open Sys2Proof.Machine

set_option Elab.async false

/-! ### States -/

/-- A module in service: rails and PCIe link up, bring-up finished, every partition's path up. -/
def up : Mod :=
  let m : Mod := { State.reset.mod with pwr := { rails := .on }, pcie := { link := true } }
  ((m.set F.BOOT_STAT_step 0 10).set F.BOOT_STAT_ready 0 1).set F.GEO_AVAIL_part_avail 0 0xFFFF

def st (m : Mod) : State := { State.reset with mod := m }

/-- A record of opcode `op` with descriptors `ds` and operand words `ps`, without waits or signals. -/
def rcd (op : Nat) (ds ps : List Nat) : W1024 :=
  BitVec.ofNat 1024 (op + ((List.range 6).map fun k => ds.getD k noDesc * 2 ^ (576 + 17 * k)).sum
    + ((List.range 5).map fun k => ps.getD k 0 * 2 ^ (704 + 64 * k)).sum)

/-- A tensor of rank 1, scale 1.0, in region 0. -/
def desc (fmt off ext : Nat) (more : Nat := 0) : W512 :=
  BitVec.ofNat 512 (fmt + 2 ^ 4 + 2 ^ 13 + 0x3F800000 * 2 ^ 64 + off * 2 ^ 192 + ext * 2 ^ 384 + 2 ^ 416 + 2 ^ 448 + 2 ^ 480 + more)

/-- A region of `size` bytes at physical address 0 with every access. -/
def rgn (size : Nat) (more : Nat := 0) : W256 := BitVec.ofNat 256 (size * 2 ^ 64 + 2 ^ 128 + 2 ^ 136 + 2 ^ 137 + 2 ^ 138 + more)

/-- `m` with context 0 active on partition 0, and `r` checked at the head of its queue 0. -/
def withRec (m : Mod) (r : W1024) (tdt : List (Nat × W512)) : Mod :=
  let m := (((m.set F.PART_STAT_state 0 2).set F.CTX_STAT_state 0 1).set F.CTX_QUOTA_tdt_count 0 8).set F.CTX_CFG_part_mask 0 1
  let m := ((m.set F.Q_CFG_enable 0 1).set F.Q_CFG_part_mask 0 1).set F.Q_CFG_size_log2 0 6
  let m := m.setPart 0 { m.part 0 with active := some 0 }
  { m.setQueue 0 { tail := 1, fetched := [⟨r, ST_OK⟩], checked := true } with
    tdt := tdt, regions := [(0, rgn 4096), (1, rgn 4096 (2 ^ 139))] }

/-- What a record captures. -/
def capsOf (m : Mod) (r : W1024) : List Cap := match m.captureOp 0 1 r with | .ok l => l | .error _ => []

def f32x4 (k : Nat) : Nat × W512 := (k, desc 5 (64 * k) 4)

/-- Context 0 in a step with state `n`. -/
def inStep (m : Mod) (n : Nat) : Mod := m.set F.STEP_STAT_state 0 n

/-- A module at logical and physical address 0 of a ring of 4 along X. -/
def ring4 (m : Mod) : Mod := (m.set F.RTE_SHAPE_ext_x 0 4).set F.RTE_SELF_logical_valid 0 1

/-! ### Ill-formed commands -/

theorem test_wf_memory_error : Instr.wf (.matmul 0 [.word (2 ^ 37) 1]) = false ∧ Instr.wf (.matmul 0 [.word 0 65]) = false
    ∧ Instr.wf (.sliceScrub 0 [.slice (2 ^ 37) 1] false) = false ∧ Instr.wf (.matmul 0 [.word (2 ^ 37 - 1) 64]) = true := by decide +kernel

theorem test_wf_bar4 : Instr.wf (.bar4Read 0 0 []) = false ∧ Instr.wf (.bar4Read (2 ^ 40) 1 []) = false
    ∧ Instr.wf (.bar4Read 0 1 [.word 0 65]) = false ∧ Instr.wf (.bar4Write 0 []) = false ∧ Instr.wf (.bar4Write (2 ^ 40) [none]) = false
    ∧ Instr.wf (.bar4Atomicop 3 true 0 0 0) = false ∧ Instr.wf (.bar4Atomicop 0 true (2 ^ 40) 0 0) = false
    ∧ Instr.wf (.bar4Resize 27) = false ∧ Instr.wf (.bar4Resize 41) = false ∧ Instr.wf (.bar4Resize 40) = true := by decide +kernel

theorem test_wf_flit : Instr.wf (.dataFlitReceive 0 []) = false ∧ Instr.wf (.nakReceive 0 [] 0) = false
    ∧ Instr.wf (.keepaliveReceive 0 []) = false ∧ Instr.wf (.idleFlitReceive 0 []) = false
    ∧ Instr.wf (.idleFlitReceive 0 (List.replicate 256 0)) = true := by decide +kernel

/-- A byte payload shorter than its header says. -/
def shortP : Packet :=
  { hdr := { dst := 0, src := 0, ctx := 0, ctxValid := false, gen := 0, epoch := 0, ptype := 0x11, len := 7, route := 0, bseq := 0, opq := 0 }
    payload := .bytes [] }

theorem test_wf_packet : Instr.wf (.packetReceive 0 0 false shortP) = false ∧ Instr.wf (.collDataReceive 0 shortP) = false
    ∧ Instr.wf (.castDataReceive 0 shortP) = false := by decide +kernel

theorem test_wf_rest : Instr.wf (.patrolScrubRead 0 65 false) = false ∧ Instr.wf (.registerWrite (.bar0 0) 0 0) = false
    ∧ Instr.wf (.msixUnmask none 8) = false ∧ Instr.wf (.msixUnmask (some 0) 4) = false ∧ Instr.wf (.dieTempSample []) = false
    ∧ Instr.wf (.challenge .doe 8 0 (List.replicate 32 0)) = false ∧ Instr.wf (.challenge .doe 0 0 []) = false
    ∧ Instr.wf (.getMeasurements .doe 0 0 [] 0) = false ∧ Instr.wf (.getMeasurements .doe 0 0 (List.replicate 32 0) 8) = false
    ∧ Instr.wf (.getCertificate .doe 8 0 0) = false := by decide +kernel

/-! ### The block -/

theorem witness_StepTakesFront :
    ({ st up with pending := [.deadlockScan, .joinWindowExpiry] } : State).pending = .deadlockScan :: [.joinWindowExpiry] := rfl

theorem witness_IdleStep : (st up).pending = [] ∧ (st up).mod.pwr.rails = .on ∧ State.reset.mod.pwr.rails = .waitFlow
    ∧ (st { up with pwr := { rails := .off } }).mod.pwr.rails ≠ .on := by decide +kernel

theorem witness_PinsInvariant : State.reset.pins = State.reset.mod.pins
    ∧ step { State.reset with pending := [.powerOn] } = exec .powerOn State.reset := ⟨by decide +kernel, rfl⟩

theorem witness_StandingEngines : moverOf (.nop 0) = .engines ∧ State.reset.mod.works = false
    ∧ moverOf .stopArm = .power ∧ State.reset.mod.powered = false := by decide +kernel

theorem witness_SettleOfQuiet : up.fab.loop = [] ∧ up.round = up := by decide +kernel

/-! ### Records -/

def tpR := rcd 0x33 [0, 1] []
def tp := withRec up tpR [f32x4 0, f32x4 1]
def smR := rcd 0x23 [0, noDesc, 1] []
def sm := ((inStep (withRec up smR [f32x4 0, f32x4 1]) 1).set F.STEP_STAT_abandoned 0 1).set F.STEP_CFG_skip_on_abandon 0 1

theorem witness_RecordsRun :
    ((Instr.transpose 0 [], 0x33, tpCheck) ∈ runRecords 0 []) ∧
    ((Instr.softmax 0 [], 0x23, smCheck) ∈ runRecords 0 []) ∧
    (tp.works = true ∧ tp.issues 0 0x33 tpCheck tpR (capsOf tp tpR) = true
      ∧ (isCompute 0x33 && (tp.begun 0 0x33 tpR (capsOf tp tpR)).skipped 0) = false
      ∧ ((tp.begun 0 0x33 tpR (capsOf tp tpR)).meetErrors (some 0) 0 []).running 0 = true) ∧
    (isCompute 0x23 = true ∧ sm.works = true ∧ sm.issues 0 0x23 smCheck smR (capsOf sm smR) = true
      ∧ (sm.begun 0 0x23 smR (capsOf sm smR)).skipped 0 = true) :=
  ⟨by simp [runRecords], by simp [runRecords], by decide +kernel, by decide +kernel⟩

def nopR := rcd 0 [] []
def nopM := withRec up nopR []
def cpR := rcd 0x30 [0, 1] []
def cp := withRec up cpR [f32x4 0, f32x4 1]
def hxR := rcd 0x34 [] [0, 1, 64]
def hx := withRec up hxR []
def srR := rcd 0x40 [0, noDesc, 1] []
def sr := withRec up srR [f32x4 0, f32x4 1]
def caR := rcd 0x41 [0, 1, 2] []
def ca := withRec up caR [f32x4 0, f32x4 1, f32x4 2]
def pfR := rcd 0x35 [] [0]
def pf := (withRec up pfR []).set F.CTX_PF_CFG_pf_count 0 1

theorem witness_RecordsStart :
    (nopM.works = true ∧ nopM.issues 0 0 (fun _ _ _ => ST_OK) nopR [] = true) ∧
    (cp.issues 0 0x30 cpCheck cpR (capsOf cp cpR) = true
      ∧ ((cp.begun 0 0x30 cpR (capsOf cp cpR)).meetErrors (some 0) 0 []).running 0 = true) ∧
    (hx.issues 0 0x34 (fun m r _ => m.hxCheck (qCtx 0) r) hxR [] = true
      ∧ ((hx.begun 0 0x34 hxR []).meetErrors (some 0) 0 []).running 0 = true) ∧
    (sr.issues 0 0x40 srCheck srR (capsOf sr srR) = true
      ∧ ((sr.begun 0 0x40 srR (capsOf sr srR)).meetErrors (some 0) 2 []).running 0 = true) ∧
    (ca.issues 0 0x41 caCheck caR (capsOf ca caR) = true
      ∧ ((ca.begun 0 0x41 caR (capsOf ca caR)).meetErrors (some 0) 2 []).running 0 = true) ∧
    pf.issues 0 0x35 (fun m r _ => if Rc.pf r 0 0 16 < m.get F.CTX_PF_CFG_pf_count (qCtx 0) then ST_OK else ST_BAD_SHAPE)
      pfR [] = true := by decide +kernel

/-- A collective along X over all four, wire format `w`. -/
def p0 (w : Nat) : Nat := 4 * 2 ^ 9 + w * 2 ^ 16
def arR := rcd 0x50 [0, 1] [p0 5]
def ar := ring4 (withRec up arR [f32x4 0, f32x4 1])
def ruR := rcd 0x55 [0, 1, 2, 3, noDesc, 5] [p0 5, 1]
def ru :=
  let m := inStep (ring4 (withRec up ruR
    [(0, desc 5 0 4), (1, desc 5 64 4 (2 ^ 8 + 512 * 2 ^ 256)), (2, desc 5 128 4 (2 ^ 8 + 576 * 2 ^ 256)),
     (3, desc 5 192 4 (2 ^ 8 + 640 * 2 ^ 256)), (5, desc 5 256 4 (2 ^ 8 + 704 * 2 ^ 256))])) 1
  { m with groupsLatch := [(0, BitVec.ofNat 256 (2 ^ 195))] }

theorem witness_CollectiveRecordsWait :
    ((Instr.allReduce 0 [], 0x50) ∈ ringRecords 0 []) ∧
    (ar.works = true ∧ ar.issues 0 0x50 coCheck arR (capsOf ar arR) = true
      ∧ ((ar.begun 0 0x50 arR (capsOf ar arR)).meetErrors (some 0) 0 []).running 0 = true) ∧
    (ru.works = true ∧ ru.issues 0 0x55 (ruCheck 0) ruR (capsOf ru ruR) = true ∧ (ru.begun 0 0x55 ruR (capsOf ru ruR)).running 0 = true) :=
  ⟨by simp [ringRecords], by decide +kernel, by decide +kernel⟩

def sbR := rcd 0x60 [] [1]
def sb := withRec up sbR []
def sbtR := rcd 0x60 [0] [1]
def sbt := withRec up sbtR [(0, desc 7 0 32)]
def seR := rcd 0x61 [] []
def se := inStep (withRec up seR []) 1
def voR := rcd 0x62 [] [2 ^ 6 + 2 ^ 22 + 2 ^ 38 + 2 ^ 54]
def vo := inStep (withRec up voR []) 2
def flR := rcd 0x63 [] []
def fl := inStep (withRec up flR []) 4
def flp := fl.set F.STEP_STAT_outcome 0 1

theorem witness_StepRecordsRun :
    (sb.issues 0 0x60 (sbCheck 0) sbR [] = true ∧ capOf [] 0 = none) ∧
    (sbt.issues 0 0x60 (sbCheck 0) sbtR (capsOf sbt sbtR) = true ∧ (capOf (capsOf sbt sbtR) 0).isSome = true
      ∧ (capsOf sbt sbtR).all (fun x => !((sbt.begun 0 0x60 sbtR (capsOf sbt sbtR)).readCap x).poisonedCap x) = true) ∧
    (let m : Mod := { sbt with poison := [(0, true)] }
     m.issues 0 0x60 (sbCheck 0) sbtR (capsOf m sbtR) = true ∧ (capOf (capsOf m sbtR) 0).isSome = true
      ∧ (capsOf m sbtR).all (fun x => ((m.begun 0 0x60 sbtR (capsOf m sbtR)).readCap x).poisonedCap x) = true) ∧
    se.issues 0 0x61 (seCheck 0) seR [] = true ∧ vo.issues 0 0x62 (voCheck 0) voR [] = true ∧
    (flp.issues 0 0x63 (flCheck 0) flR [] = true ∧ (flp.begun 0 0x63 flR []).get F.STEP_STAT_outcome 0 = 1) ∧
    (fl.issues 0 0x63 (flCheck 0) flR [] = true ∧ (fl.begun 0 0x63 flR []).get F.STEP_STAT_outcome 0 ≠ 1) := by decide +kernel

def dwR := rcd 0x70 [] [0, 2 ^ 17]
def wwR := rcd 0x73 [] [0, 2 ^ 8]
def gwR := rcd 0x72 [] [0x7F * 2 ^ 8 + 2 ^ 18, 0, 0x322BCC77 * 2 ^ 32, 0x3F800000]
def swR := rcd 0x71 [] [2 ^ 12]
def ilR := rcd 0x64 [] [1 + 2 ^ 6]
def il := ((withRec up ilR []).set F.CTX_STAT_state 1 1).set F.CTX_FLG_RANGE_flag_count 1 1

theorem witness_TableRecordsRun :
    (withRec up dwR []).issues 0 0x70 (dwCheck 0) dwR [] = true ∧ (withRec up wwR []).issues 0 0x73 (wwCheck 0) wwR [] = true ∧
    (withRec up gwR []).issues 0 0x72 (gwCheck 0) gwR [] = true ∧ (withRec up swR []).issues 0 0x71 (swCheck 0) swR [] = true ∧
    il.issues 0 0x64 (ilCheck 0) ilR [] = true := by decide +kernel

/-- Queue 0 with an operation of record `r`. -/
def withOp (m : Mod) (o : Op) : Mod := m.setQueue 0 { m.queue 0 with op := some o, fetched := [] }

def opA : Op := { rcd := nopR, caps := [], parts := 1 }
def collQ := withOp { ar with collWait0 := [0] } { opA with rcd := arR, coll := some {}, ready := false }

theorem witness_OperationsGoOn :
    ((withOp nopM opA).works = true ∧ ((withOp nopM opA).queue 0).op = some opA ∧ opA.ready = true ∧ opA.fallback = []
      ∧ opA.hostPhase = 0 ∧ (((withOp nopM opA).mergeRun 0).queue 0).op.any (·.fallback.isEmpty) = true) ∧
    (let o : Op := { opA with rcd := gwR }
     (((withOp (withRec up gwR []) o).mergeRun 0).queue 0).op.any (fun o => decide (Rc.opcode o.rcd = 0x72) && o.fallback.isEmpty) = true) ∧
    (let o : Op := { opA with rcd := swR }
     (((withOp (withRec up swR []) o).mergeRun 0).queue 0).op.any (fun o => decide (Rc.opcode o.rcd = 0x71) && o.fallback.isEmpty) = true) ∧
    (let o : Op := { opA with rcd := ilR }
     (((withOp il o).mergeRun 0).queue 0).op.any (fun o => decide (Rc.opcode o.rcd = 0x64) && o.fallback.isEmpty) = true) ∧
    (((withOp tp { opA with rcd := tpR, fallback := [(1, 5, 0x3F800000)] }).queue 0).op = some { opA with rcd := tpR, fallback := [(1, 5, 0x3F800000)] }
      ∧ Rc.opcode tpR ≠ 0x30 ∧ opA.run ≠ .first ∧ ((withOp tp { opA with rcd := tpR, fallback := [(1, 5, 0x3F800000)] }).meetErrors (some 0) 0 []).running 0 = true) ∧
    (∀ x ∈ up.pcie.reqs, x.list ≠ some (63, 0xFFFF)) ∧
    (collQ.works = true ∧ collQ.collWait 0 = [0] ∧ collQ.on F.COL_STAT_busy 0 = false ∧ (collQ.queue 0).op.isSome = true
      ∧ (((collQ.setCollWait 0 []).engineTake 0 0 arR).queue 0).op.isSome = true) := by decide +kernel

/-! ### Doorbells, tables, contexts -/

/-- The tail one at the size of the queue, and one past it; one not behind the last tail, and one behind it (R140). -/
theorem witness_DoorbellCommands :
    (nopM.doorOpen (.pf 0) 0 = true ∧ (nopM.cnt 622 1).qOn 0 = true ∧ (64#32 - ((nopM.cnt 622 1).queue 0).head).toNat ≤ (nopM.cnt 622 1).qSize 0
      ∧ ((nopM.cnt 622 1).queue 0).waiting ≤ (1#32 - ((nopM.cnt 622 1).queue 0).head).toNat) ∧
    ((nopM.cnt 622 1).qSize 0 < (65#32 - ((nopM.cnt 622 1).queue 0).head).toNat
      ∧ (0#32 - ((nopM.cnt 622 1).queue 0).head).toNat < ((nopM.cnt 622 1).queue 0).waiting) ∧
    (up.doorOpen (.pf 1023) 1023 = true ∧ (up.cnt 622 1).qOn 1023 = false) ∧
    (let h := nopM.setQueue 0 { nopM.queue 0 with halted := some ST_BAD_ATTR }
     h.doorOpen (.pf 0) 0 = true ∧ (h.queue 0).halted = some ST_BAD_ATTR ∧ h.qOn 0 = true ∧ (h.queue 0).op = none
       ∧ ST_BAD_ATTR ≠ ST_BAD_DOORBELL ∧ (h.queue 0).waiting ≠ 0) := by decide +kernel

/-- The first flag past the context's range, and the last inside it. -/
theorem witness_FlagWrites :
    up.hostOpen Blk.FLG = true ∧ up.doorOpen (.pf 1023) 1023 = true ∧ up.flagIn 63 (up.queue 1023).flagSel.toNat = false ∧
    (let m := up.set F.CTX_FLG_RANGE_flag_count 63 1
     m.doorOpen (.pf 1023) 1023 = true ∧ m.flagIn 63 (m.queue 1023).flagSel.toNat = true) := by decide +kernel

theorem witness_FlagWriteFrame :
    (st up).mod.hostOpen Blk.FLG = true ∧ ((st up).mod.flagSet 65535 1).fab.loop = []
    ∧ ((st up).mod.flagSet 65535 1).round = (st up).mod.flagSet 65535 1
    ∧ exec (.flgValWrite 65535 1) (st up) = .next ((st up).leave ((st up).mod.flagSet 65535 1).settle) :=
  ⟨by decide +kernel, by decide +kernel, by decide +kernel, rfl⟩

def on63 := up.set F.CTX_CFG_part_mask 63 1

theorem witness_ContextEnables :
    (up.hostOpen Blk.CTX = true ∧ up.ctxState 63 = 0 ∧ up.ctxCheck 63 ≠ ST_OK) ∧
    (on63.hostOpen Blk.CTX = true ∧ on63.ctxState 63 = 0 ∧ on63.ctxCheck 63 = ST_OK) := by decide +kernel

theorem witness_ContextTeardown :
    (nopM.hostOpen Blk.CTX = true ∧ nopM.ctxState 0 = 1) ∧
    ((nopM.set F.CTX_STAT_state 0 2).works = true ∧ (nopM.set F.CTX_STAT_state 0 2).ctxState 0 = 2) := by decide +kernel

theorem witness_GenerationWrites :
    (up.hostOpen Blk.LNK = true ∧ up.ctxState 63 = 0) ∧ (nopM.hostOpen Blk.LNK = true ∧ nopM.ctxState 0 ≠ 0) ∧
    (on63.hostOpen Blk.CTX = true ∧ on63.ctxState 63 = 0 ∧ on63.ctxCheck 63 = ST_OK) := by decide +kernel

def staged := (up.set F.CTX_RGN_STAGE_data 1 65536).set F.CTX_RGN_STAGE_data 2 257

theorem witness_TableCommands :
    (up.hostOpen Blk.CTX = true ∧ staged.regionOk 0 staged.stagedRegion = true
      ∧ (staged.set F.CTX_RGN_STAGE_data 1 65535).regionOk 0 (staged.set F.CTX_RGN_STAGE_data 1 65535).stagedRegion = false) ∧
    (let m : Mod := { nopM with regions := [(0, rgn 65536)] }
     m.hostOpen Blk.Q = true ∧ m.qOn 1 = false ∧ m.qBusy 1 = false ∧ m.queueOk 1 (setBits (2 + 6 * 8 + 2 ^ 16) 0 1 1) = true) ∧
    (nopM.hostOpen Blk.Q = true ∧ (nopM.get F.FLT_PEND_Q_queue 0).testBit 0 = false ∧ nopM.qOn 0 = true) ∧
    (up.hostOpen Blk.TDT = true ∧ (122879 : Fin 131072).val < 122880) := by decide +kernel

def lent := nopM.setCtx 1 { nopM.ctx 1 with
  iludes := [{ train := 0, queue := 0, parts := 1, flag := 0, target := 0, budget := 1, started := true }] }

theorem witness_SliceEvents :
    (let m := nopM.setPart 0 { nopM.part 0 with active := none }
     m.works = true ∧ m.partUp 0 = true ∧ m.partReady 0 = true ∧ m.runsOn 1 (fun _ => true) = false
       ∧ m.nextContext 0 = some 0) ∧
    (lent.works = true ∧ (lent.ilNext 1).isSome = true ∧ (lent.ctx 1).iludes.length = 1 ∧ (lent.ctx 1).iludes.all (·.live) = true) := by decide +kernel

theorem witness_ZoneCommit :
    let t (m : Mod) := (List.range 64).map m.stagedZone
    let bad := up.set F.MEM_ZONE_kind 63 3
    up.hostOpen Blk.MEM = true ∧ (∀ c, c < 64 → up.ctxState c = 0) ∧ ((t up).all zonePlaceOk && zoneMapOk (t up)) = true ∧
    bad.hostOpen Blk.MEM = true ∧ (∀ c, c < 64 → bad.ctxState c = 0) ∧ ((t bad).all zonePlaceOk && zoneMapOk (t bad)) = false ∧
    nopM.hostOpen Blk.MEM = true ∧ nopM.ctxState 0 ≠ 0 := by decide +kernel

/-! ### Memory -/

/-- One byte; every place reads as its last byte; a place elsewhere. -/
theorem witness_MemoryStores : (∀ j, j < 1 → up.key (0 + j) ≠ 2 ^ 40 - 1) ∧
    (0 < 1 ∧ ∀ i, 0 < i → i < 1 → up.key (0 + i) ≠ up.key (0 + 0)) :=
  ⟨by decide +kernel, by decide, fun i h h' => absurd h' (Nat.not_lt.mpr h)⟩

theorem witness_AddressesApart : up.zones = [] ∧ 2 ^ 40 - 1 < 2 ^ 40 ∧ up.key (2 ^ 40 - 1) = up.key (2 ^ 40 - 1) := by decide +kernel

/-- Seven bytes of word 0, and all eight. -/
theorem witness_WholeWritesClearPoison :
    (∀ a, 0 ≤ a → a + 8 ≤ 0 + (List.replicate 7 (0 : Byte)).length → a % 8 = 0 → up.key a / 8 ≠ 0) ∧
    (0 ≤ 0 ∧ 0 + 8 ≤ 0 + (List.replicate 8 (0 : Byte)).length ∧ 0 % 8 = 0) :=
  ⟨fun a _ h => absurd h (by simp only [List.length_replicate]; omega), by decide⟩

/-- A ring of one place is full, one of two is not. -/
theorem witness_RingWrites :
    (up.get F.MQ_LOG_PTR_head 0 + 1) % 1 = up.get F.MQ_LOG_PTR_tail 0 % 1 ∧
    (up.get F.MQ_LOG_PTR_head 0 + 1) % 2 ≠ up.get F.MQ_LOG_PTR_tail 0 % 2 := by decide +kernel

/-- The last bytes of the window; the ends of the sizes BAR4 takes. -/
theorem witness_Bar4Commands :
    (up.bar4Here (2 ^ 34 - 8) 8 = true ∧ up.inRecovery = false ∧
      (∀ j, j < 8 → up.bar4Up (up.stackOf (up.bar4Addr (2 ^ 34 - 8) + j)) = true ∧ up.poisoned (up.bar4Addr (2 ^ 34 - 8) + j) = false) ∧
      up.bar4Down ((List.range 8).map fun j => up.bar4Addr (2 ^ 34 - 8) + j) = up) ∧
    ((2 ^ 34 - 8) % 8 = 0 ∧ (2#2).toNat ≤ 2 ∧ up.poisonedIn (up.bar4Addr (2 ^ 34 - 8) / 128 * 128) 128 = false) ∧
    (28 ≤ 28 ∧ 40 ≤ 40 ∧ up.powered = true ∧ up.pcie.link = true) := by decide +kernel

theorem witness_Bar4WriteFrame :
    let m := ((up.cnt 619 1).cnt 616 1).wrList [(up.bar4Addr 0, 1)]
    up.bar4Here 0 1 = true ∧ up.inRecovery = false ∧ up.bar4Down [up.bar4Addr 0] = up ∧ m.fab.loop = [] ∧ m.round = m := by
  decide +kernel

def stk := ((up.set F.MEM_SCRUB_CFG_enable 0 1).set F.MEM_STACK_STAT_gated 15 0)

/-- The highest temperature below the self-refresh level; a stack in self-refresh; one in service. -/
theorem witness_MemoryEvents :
    (let m : Mod := { up with pcie := { up.pcie with reqs := [{ tag := 7, queue := 0, list := none, addr := 0, len := 4, fn := 0, sent := true }] } }
     m.works = true ∧ m.pcie.reqs.any (fun q => q.tag == 7 && q.sent) = true) ∧
    (up.powered = true ∧ up.get F.PWR_MS_CTL_state < 2) ∧
    (stk.works = true ∧ stk.on F.MEM_SCRUB_CFG_enable = true ∧ stk.partUp 15 = true ∧ (stk.part 15).selfRefresh = false
      ∧ stk.on F.MEM_STACK_STAT_gated 15 = false ∧ ((stk.part 15).scrubPos + 1) % 2 ^ 33 ≠ 0) ∧
    (let m := (up.set F.MEM_STACK_STAT_temp_c 15 104).hottest
     (104#8).toNat < 110 ∧ (m.part 15).selfRefresh = false ∧ stackLevelNext (m.get F.MEM_STACK_STAT_level 15) 104 ≠ 4) ∧
    (let m := up.setPart 15 { up.part 15 with selfRefresh := true }
     (m.part 15).selfRefresh = true ∧ m.failed = false) ∧
    up.on F.MEM_STACK_STAT_stack_fault 15 = false := by decide +kernel

/-! ### The fabric -/

/-- Port 7 in state `n`, its axis of 4 modules. -/
def port7 (n : Nat) : Mod := ((up.set F.RTE_SHAPE_ext_w 0 4).set F.LNK_STAT_state 7 n).set F.LNK_CFG_enable 7 1

theorem witness_PortCommands :
    (let m := (port7 0).set F.LNK_CFG_enable 7 0
     m.hostOpen Blk.LNK = true ∧ m.on F.LNK_CFG_enable 7 = false ∧ (m.set F.LNK_CFG_enable 7 1).axisLive 7 = true
       ∧ (m.set F.LNK_CFG_enable 7 1).failed = false) ∧
    (port7 5).get F.LNK_STAT_state 7 ≠ 0 ∧
    ((port7 2).on F.LNK_CFG_enable 7 = true ∧ (port7 2).axisLive 7 = true ∧ (port7 2).carries0 7 = true) ∧
    ((port7 3).set F.LNK_CFG_fence 7 1).usable 7 = true ∧
    (((port7 4).set F.LNK_CFG_fence 7 0).setPort 7
      { ((port7 4).set F.LNK_CFG_fence 7 0).port 7 with fencing := false }).get F.LNK_STAT_state 7 = 4 := by decide +kernel

theorem witness_TrainingEvents :
    ((port7 1).linkOpen = true ∧ (port7 1).get F.LNK_STAT_state 7 = 1) ∧
    (let m := (port7 1).setPort 7 { (port7 1).port 7 with peerMode := some 2 }
     m.linkOpen = true ∧ m.get F.LNK_STAT_state 7 = 1 ∧ (m.port 7).peerMode.isSome = true
       ∧ pickGroup 0xFF (minLanes ((m.set F.LNK_STAT_failed_mask 7 0xFF).get F.LNK_CFG_min_width 7)) 8 = none) ∧
    (let m := (port7 2).set F.LNK_STAT_lane_mask 7 0x0F
     m.carries0 7 = true ∧ 0x0F &&& 0x80 = 0 ∧ 0x0F &&& 0x01 ≠ 0 ∧ m.get F.LNK_STAT_lane_mask 7 = 0x0F
       ∧ pickGroup (m.get F.LNK_STAT_failed_mask 7 ||| 1) (minLanes (m.get F.LNK_CFG_min_width 7)) (laneCount 0x0F) = some 0xF0) ∧
    (let m := (port7 5).set F.LNK_CFG_auto_retrain 7 1
     m.get F.LNK_STAT_state 7 = 5 ∧ m.on F.LNK_CFG_auto_retrain 7 = true ∧ m.on F.LNK_CFG_enable 7 = true ∧ m.failed = false
       ∧ m.get F.PWR_MS_CTL_state ≠ 3) := by decide +kernel

/-- A flit of each type, and one whose CRC is wrong. -/
theorem witness_FlitsTaken :
    let m := port7 2
    let data := mkFlit 0 []
    m.works = true ∧ m.boot.jtag = false ∧ m.carries0 7 = true ∧
    (Ft.good data = true ∧ Ft.ftype data = 0 ∧ Ft.vc data < 6 ∧ Ft.seq data = ((m.takeReturns 7 data).port 7).rxNext
      ∧ Ft.seq data < 65536) ∧
    (Ft.good (mkFlit 3 []) = true ∧ Ft.ftype (mkFlit 3 []) = 3 ∧ (m.port 7).nakCount = 0) ∧
    (Ft.good (mkFlit 1 []) = true ∧ Ft.ftype (mkFlit 1 []) = 1) ∧
    (Ft.good (mkFlit 2 []) = true ∧ Ft.ftype (mkFlit 2 []) = 2 ∧ Ft.probe (mkFlit 2 []) = false) ∧
    m.fab.silent.testBit (7 / 4) = false ∧ Ft.good (List.replicate 256 0) = false := by decide +kernel

def hdr (dst ptype route : Nat) : PktHdr :=
  { dst := BitVec.ofNat 24 dst, src := 1, ctx := 0, ctxValid := false, gen := 0, epoch := 0, ptype := BitVec.ofNat 8 ptype,
    len := 8, route := BitVec.ofNat 32 route, bseq := 1, opq := 0 }
def ackP : Packet := { hdr := hdr 0 0x31 0, payload := .watchAck 0 true }
def floodP : Packet := { hdr := hdr 0xFFFFFF 0x02 0, payload := .notice 1 0 5 0 0 }
def onP : Packet := { hdr := hdr 2 0x31 0x02, payload := .watchAck 0 true }

def addrP : Packet := { hdr := hdr 0 0x01 0, payload := .address 5 }
def keyP (k : Byte) : Packet := { hdr := hdr 0xFFFFFF 0x01 0, payload := .rootKey k 0 }

theorem witness_PacketsArrive :
    ((Instr.watchAckReceive 7 ackP, 0x31) ∈ packetKinds 7 ackP) ∧ ((Instr.linkNoticeReceive 7 floodP, 0x02) ∈ packetKinds 7 floodP) ∧
    (let m := port7 2
     m.works = true ∧ m.carries0 7 = true ∧ ackP.hdr.ptype.toNat = 0x31 ∧ flooded ackP = false ∧ ackP.hdr.dst.toNat = m.phys
       ∧ m.epochOk ackP = true ∧ m.genOk ackP = true ∧ floodP.hdr.ptype.toNat = 0x02 ∧ flooded floodP = true) ∧
    (let m := ((port7 2).set F.RTE_SHAPE_ext_x 0 4).set F.LNK_STAT_state 0 2
     m.usable 7 = true ∧ flooded onP = false ∧ ((m.releaseRx 7 5 false (flitCount onP)).hop onP.hdr.route.toNat).isSome = true
       ∧ (m.releaseRx 7 5 false (flitCount onP)).accepts 0 5 = true) ∧
    (let m : Mod := { port7 2 with fab := { up.fab with bestKey := some (2, 0) } }
     m.works = true ∧ m.carries0 7 = true ∧ addrP.hdr.ptype = 0x01 ∧ (keyP 1).hdr.ptype = 0x01 ∧ flooded addrP = false
       ∧ flooded (keyP 1) = true ∧ keyLt (1, 0) (2, 0) = true ∧ keyLt (2, 0) (2, 0) = false) :=
  ⟨by simp [packetKinds], by simp [packetKinds], by decide +kernel, by decide +kernel, by decide +kernel⟩

theorem witness_DiscoveryGoesOn :
    (up.works = true ∧ up.fab.haveAddr = false ∧ up.get F.RTE_SELF_disc_state = 0 ∧ up.fab.started = false) ∧
    (let m : Mod := { up with fab := { up.fab with started := true } }
     m.works = true ∧ m.fab.haveAddr = false ∧ m.get F.RTE_SELF_disc_state = 0 ∧ m.fab.started = true) ∧
    (let m : Mod := { up.set F.RTE_SELF_disc_state 0 1 with fab := { up.fab with bestKey := some up.rootKey } }
     m.works = true ∧ m.fab.haveAddr = false ∧ m.get F.RTE_SELF_disc_state = 1 ∧ m.fab.bestKey = some m.rootKey) := by decide +kernel

theorem witness_RouteCommands :
    up.hostOpen Blk.RTE = true ∧ up.routesOk up.stagedRoutes.1 up.stagedRoutes.2 = true ∧
    (let m := up.setRegAt R.RTE_REMAP.base 0 (2 ^ 64 - 1)
     m.hostOpen Blk.RTE = true ∧ m.routesOk m.stagedRoutes.1 m.stagedRoutes.2 = false) := by decide +kernel

/-! ### Steps, casts, resets, hangs -/

theorem witness_StepEvents :
    (collQ.works = true ∧ (collQ.queue 0).op.any (fun o => decide (0x50 ≤ Rc.opcode o.rcd) && decide (Rc.opcode o.rcd ≤ 0x55)
      && !o.ready) = true) ∧
    (let m := (inStep up 2).setCtx 0 { up.ctx 0 with norm := some (0, true) }
     m.works = true ∧ m.stepOpen 0 = true ∧ m.get F.STEP_STAT_state 0 ≠ 1 ∧ (m.ctx 0).updDone = false ∧ m.updOver 0 = true) ∧
    (let m := (inStep up 3).setCtx 0 { up.ctx 0 with lossDone := true, aggDone := true, updDone := true }
     m.works = true ∧ m.get F.STEP_STAT_state 0 = 3 ∧ m.on F.STEP_STAT_verdict_fixed 0 = false
       ∧ (m.condHolds 0).all (! ·) = true ∧ (m.condHolds 0).length = 6) := by decide +kernel

/-- The first and the last state of an open step, and those on either side. -/
theorem witness_StepControl :
    ((inStep up 1).hostOpen Blk.STEP = true ∧ (inStep up 1).stepOpen 0 = true ∧ (inStep up 4).stepOpen 0 = true
      ∧ (inStep up 1).on F.STEP_STAT_verdict_fixed 0 = false) ∧
    ((inStep up 0).stepOpen 0 = false ∧ (inStep up 5).stepOpen 0 = false) ∧
    (let m := (inStep up 1).set F.STEP_STAT_close_pending 0 1
     m.works = true ∧ m.stepOpen 0 = true ∧ m.on F.STEP_STAT_close_pending 0 = true ∧ m.opsRunning 0 [0x62, 0x63, 0x55] = false) ∧
    ((inStep up 5).hostOpen Blk.STEP = true ∧ (inStep up 5).get F.STEP_STAT_state 0 = 5) := by decide +kernel

theorem witness_StepSet : up.hostOpen Blk.STEP = true ∧ up.get F.STEP_STAT_state 63 = 0 ∧ (inStep up 5).get F.STEP_STAT_state 0 = 5
    ∧ (inStep up 4).get F.STEP_STAT_state 0 ≠ 0 ∧ (inStep up 4).get F.STEP_STAT_state 0 ≠ 5 := by decide +kernel

def castM : Mod := { ((up.set F.CAST_SIZE_rec_kib 0 256).set F.CAST_LIST_count 0 0) with regions := [(0, rgn (2 ^ 34))] }

theorem witness_CastCommands :
    (castM.hostOpen Blk.CAST = true ∧ castM.on F.CAST_CMD_busy 0 = false ∧ (castM.castCheck 0 true).1 = ST_OK) ∧
    (let m := up.setCtx 0 { up.ctx 0 with castLoaded := true }
     m.hostOpen Blk.CAST = true ∧ m.on F.CAST_CMD_busy 0 = false ∧ m.stepOpen 0 = false ∧ (m.ctx 0).castLoaded = true
       ∧ (ctxQueues 0).any m.qBusy = false) ∧
    (let m := up.setCtx 0 { up.ctx 0 with restore := some { gen := 1, check := false, record := some [] } }
     m.works = true ∧ (m.ctx 0).restore.any (fun r => r.record.isSome && decide (r.want = [])) = true) ∧
    (let m := (up.setCtx 0 { up.ctx 0 with drain := some { gen := 1, step := 0, full := true } }).set F.CAST_CFG_abandon_ms 0 1
     m.works = true ∧ m.get F.CAST_CFG_abandon_ms 0 ≠ 0 ∧ (m.ctx 0).drain.isSome = true) := by decide +kernel

/-- Partition 15 in state `n`. -/
def part15 (n : Nat) : Mod := up.set F.PART_STAT_state 15 n

theorem witness_Resets :
    (up.hostOpen Blk.FLT = true ∧ bits 0x1A5C3 0 16 = 0xA5C3 ∧ Nat.testBit 0x1A5C3 16 = true ∧ bits 0x1A5C2 0 16 ≠ 0xA5C3) ∧
    ((part15 2).hostOpen Blk.PART = true ∧ (part15 2).get F.PART_STAT_state 15 = 2 ∧ (part15 3).get F.PART_STAT_state 15 = 3
      ∧ (part15 2).failed = false) ∧
    ((part15 5).powered = true ∧ (part15 5).get F.PART_STAT_state 15 = 5 ∧ ((part15 5).part 15).selfRefresh = false) ∧
    ((part15 0).get F.PART_STAT_state 15 = 0 ∧ ((part15 0).set F.PART_CTL_enable 15 1).on F.BOOT_STAT_ready = true
      ∧ ((part15 0).set F.PART_CTL_enable 15 1).failed = false
      ∧ ((((part15 0).set F.PART_CTL_enable 15 1).partRun 15).part 15).stopTime = 0) ∧
    ((part15 2).get F.FLT_PEND_BLK_part).testBit 15 = false ∧
    (∀ c, c < 64 → (part15 2).ctxState c = 0 ∨ ((part15 2).get F.CTX_CFG_part_mask c).testBit 15 = false) := by decide +kernel

theorem witness_HangEvents :
    ((withOp tp { opA with rcd := tpR }).works = true ∧ ((withOp tp { opA with rcd := tpR }).queue 0).op.isSome = true
      ∧ timedOp (Rc.opcode tpR) = true ∧ timedOp 0x4F = true ∧ timedOp 0x10 = true) ∧
    (let m := nopM.setQueue 0 { nopM.queue 0 with halted := some ST_OP_TIMEOUT }
     (m.queue 0).halted = some ST_OP_TIMEOUT ∧ bitList 16 (0xFFFF &&& m.qMask 0) = [0] ∧ m.get F.PART_STAT_state 0 = 2) ∧
    (let m := nopM.set F.HANG_CTX_CFG_queue_ms 0 1
     m.get F.HANG_CTX_CFG_queue_ms (qCtx 0) ≠ 0 ∧ m.qOn 0 = true ∧ (m.queue 0).waiting ≠ 0 ∧ (m.queue 0).halted = none
       ∧ m.held 0 = false ∧ (m.queue 0).stalled = false) ∧
    (up.set F.HANG_CFG_enable 0 1).on F.HANG_CFG_enable = true ∧ (up.set F.HANG_CFG_enable 0 0).on F.HANG_CFG_enable = false := by
  decide +kernel

theorem witness_DumpsAndSilence :
    up.powered = true ∧ up.pcie.link = true ∧ up.hostOpen Blk.DUMP = true ∧ up.on F.DUMP_STAT_valid = false
    ∧ up.on F.DUMP_STAT_busy = false ∧ (up.set F.DUMP_STAT_valid 0 1).on F.DUMP_STAT_valid = true
    ∧ ({ up with capture := some { cause := ST_OK, trigger := 0, start := 0 } } : Mod).capture.isSome = true := by decide +kernel

theorem witness_MicrocodeLoads :
    (up.hostOpen Blk.PART = true ∧ up.on F.PART_UCODE_CMD_busy = false) ∧
    (let m := (part15 2).setPart 15 { up.part 15 with park := some {} }
     m.works = true ∧ (m.part 15).park = some {} ∧ m.get F.PART_STAT_state 15 = 2
       ∧ m.runsOn (2 ^ 15) (fun _ => true) = false) := by decide +kernel

theorem witness_ObservationCommands :
    up.works = true ∧ up.hostOpen Blk.TRC = true ∧ (up.set F.TRC_BUF_stream_en 16 1).on F.TRC_BUF_stream_en 16 = true ∧
    ({ up with watchWaits := [{ id := 3, entry := 0, ctx := 0, layer := 0 }] } : Mod).watchWaits.find? (·.id == 3)
      = some { id := 3, entry := 0, ctx := 0, layer := 0 } := by decide +kernel

/-- `TIME_STOP_STAT.state` at 0, 1, 2. -/
def stop (n : Nat) : Mod := up.set F.TIME_STOP_STAT_state 0 n

theorem witness_StopArms :
    (stop 0).hostOpen Blk.TIME = true ∧ (stop 0).get F.TIME_STOP_STAT_state = 0 ∧ (stop 1).hostOpen Blk.TIME = true
    ∧ (stop 1).get F.TIME_STOP_STAT_state = 1 ∧ (stop 2).hostOpen Blk.TIME = true ∧ (stop 2).get F.TIME_STOP_STAT_state = 2
    ∧ (stop 1).powered = true := by decide +kernel

theorem witness_StopReleases : (stop 2).hostOpen Blk.TIME = true ∧ (stop 2).get F.TIME_STOP_STAT_state = 2 ∧ (stop 3).powered = true
    ∧ (stop 3).get F.TIME_STOP_STAT_state = 3 := by decide +kernel

/-! ### Bring-up, security, PCIe, power -/

def rails (r : Rails) : Mod := { up with pwr := { up.pwr with rails := r } }

theorem witness_BringUp :
    (rails .off).pwr.rails = .off ∧ (rails .waitFlow).pwr.rails = .waitFlow ∧
    (up.set F.BOOT_STAT_ready 0 0 |>.set F.BOOT_STAT_step 0 5).get F.BOOT_STAT_step = 5 ∧
    (up.set F.BOOT_STAT_ready 0 0 |>.set F.BOOT_STAT_step 0 5).on F.BOOT_STAT_ready = false ∧ up.powered = true := by decide +kernel

def here : Mod := up.set F.SEC_STAT_presence 0 1
def recov : Mod := (up.set F.BOOT_STAT_recovery 0 1).set F.BOOT_STAT_step 0 3

/-- The last place of the flash, and the first past it. -/
theorem witness_BootOperations :
    (up.hostOpen Blk.BOOT = true ∧ up.stagingBusy = false ∧ up.present = false ∧ here.present = true ∧ here.stagingBusy = false) ∧
    (let m := up.set F.BOOT_LEN_bytes 0 4096
     m.inRecovery = false ∧ (2 ^ 15 - 1) * 4096 + m.get F.BOOT_LEN_bytes ≤ 2 ^ 27
       ∧ m.get F.BOOT_IMG_ADDR_addr * 1024 + m.get F.BOOT_LEN_bytes ≤ 2 ^ 40 ∧ 2 ^ 27 < 2 ^ 15 * 4096 + m.get F.BOOT_LEN_bytes) ∧
    (recov.powered = true ∧ recov.pcie.link = true ∧ recov.inRecovery = true ∧ recov.stagingBusy = false) := by decide +kernel

theorem witness_SecurityCommands :
    let owned : Mod := { here with boot := { here.boot with owner := some 1, firmware := some {} } }
    up.hostOpen Blk.SEC = true ∧ up.stagingBusy = false ∧ (here.set F.SEC_STAT_seal_intact 0 1).identityRefusal false = ST_OK ∧
    up.identityRefusal false ≠ ST_OK ∧ (owned.set F.SEC_STAT_seal_intact 0 1).identityRefusal true = ST_OK ∧
    here.on F.SEC_STAT_perm_full = false ∧ here.present = true ∧ owned.boot.firmware = some {} := by decide +kernel

theorem witness_PresenceAndSeal :
    up.powered = true ∧ ({ up with boot := { up.boot with presenceArmed := true } } : Mod).boot.presenceArmed = true ∧ up.alive = true ∧
    (let m : Mod := { up with boot := { up.boot with calChanged := true } }
     m.boot.calChanged = true ∧ m.calDue = true) := by decide +kernel

def vf : Mod := { up with pcie := { up.pcie with vfEnable := true, numVfs := 64 } }

theorem witness_PcieLinkEvents :
    (up.powered = true ∧ up.pcie.link = true ∧ up.inRecovery = false ∧ (64#16).toNat ≤ 64 ∧ vectors 0 - 1 < vectors 0) ∧
    (let m : Mod := { up with pcie := { up.pcie with perst := false, link := false } }
     m.powered = true ∧ m.pcie.perst = false ∧ m.pcie.link = false ∧ m.boot.jtag = false) ∧
    vf.vfHere 63 = true ∧ (rails .off).powered = false := by decide +kernel

theorem witness_Attestation :
    up.hears .doe = true ∧ up.hears .mctp = true ∧ (up.spdmOf .doe).version = false ∧ (up.spdmOf .doe).algs = false ∧
    (let m := up.setSpdm .doe { version := true, caps := true, algs := true }
     m.hears .doe = true ∧ (m.spdmOf .doe).version = true ∧ (m.spdmOf .doe).caps = true ∧ (m.spdmOf .doe).algs = true) ∧
    ((1#8).toNat.testBit 0 && (8#32).toNat.testBit 3 && (1#32).toNat.testBit 0) = true ∧
    up.slotMask.testBit 0 = true ∧ up.slotMask.testBit 7 = false ∧ (23#8).toNat ≤ 23 ∧ (0xFF#8).toNat = 0xFF := by decide +kernel

theorem witness_SidebandAnswers : up.hears .doe = true ∧ up.serves = true ∧ 1023 < 1024 := by decide +kernel

theorem witness_Samples : up.powered = true ∧ (up.alive || up.pwr.rails == .brownout) = true ∧ up.pwr.rails = .on ∧
    (List.replicate 6 114#8).length = 6 ∧ (∀ t ∈ List.replicate 6 114#8, t.toNat < 115) ∧
    (∃ t ∈ List.replicate 6 115#8, 115 ≤ t.toNat) := by decide +kernel

theorem witness_RailEvents : up.alive = true ∧ (rails .brownout).pwr.rails = .brownout ∧ Rails.brownout ≠ .on := by decide +kernel

theorem witness_PowerStates :
    (up.hostOpen Blk.PWR = true ∧ (up.set F.PWR_MS_CTL_busy 0 1).powered = true ∧ (up.set F.PWR_MS_CTL_busy 0 1).on F.PWR_MS_CTL_busy = true) ∧
    (let m := (part15 2).set F.PWR_IDLE_CFG_gate_en 0 1
     m.works = true ∧ m.get F.PWR_MS_CTL_state = 0 ∧ m.on F.PWR_IDLE_CFG_gate_en = true ∧ m.partReady 15 = true ∧ m.partIdle 15 = true) ∧
    (let m := (((part15 2).set F.PWR_IDLE_CFG_gate_en 0 1).set F.PWR_IDLE_CFG_pg_ms 0 1).set F.PWR_PART_STAT_gate 15 1
     m.get F.PWR_IDLE_CFG_pg_ms ≠ 0 ∧ m.get F.PART_STAT_state 15 = 2 ∧ m.get F.PWR_PART_STAT_gate 15 = 1 ∧ m.failed = false) := by
  decide +kernel

/-- The last register of BAR0's last page and the last of a doorbell page; a register without an effect of its own. -/
theorem witness_RegisterWrites :
    let off := R.HANG_CTX_CFG.base
    (2 ^ 26 - 4 < 2 ^ 26 ∧ up.hostOpen (blockOf (2 ^ 26 - 4)) = true ∧ accessOk (2 ^ 26 - 4) 4 = true ∧ accessOk (2 ^ 26 - 4) 8 = false) ∧
    (4092 < 4096 ∧ up.doorOpen (.pf 0) 0 = true ∧ accessOk 4092 4 = true ∧ accessOk 4092 8 = false) ∧
    (regFind off).any (fun x => decide (x.1 = R.HANG_CTX_CFG) && x.2.1 == 0) = true ∧ accessOk off R.HANG_CTX_CFG.bytes = true ∧
    ((part15 5).mute R.MEM_WASTE 15 = true ∧ up.mute R.HANG_CTX_CFG 0 = false) ∧
    (up.regActs0 R.HANG_CTX_CFG off 0 (2 ^ 64 - 1) 0).isNone = true ∧ (up.regActs1 R.HANG_CTX_CFG off 0 (2 ^ 64 - 1) 0).isNone = true ∧
    R.HANG_CTX_CFG.rw &&& R.HANG_CTX_CFG.w1c = 0 := by decide +kernel

/-! ### Single steps -/

/-- The module after one command. -/
def after (m : Mod) (c : Instr) : Mod := match step { st m with pending := [c] } with | .next t => t.mod | _ => m

/-- Table 7.2: three addresses under the mixed map of the worked example. -/
theorem test_table_7_2 :
    let m : Mod := { up with zones := ((List.range 16).map fun i => (32 + i, 1 + 4 * (i / 4)))
                                    ++ ((List.range 16).map fun i => (48 + i, 2 + 4 * i)) }
    (m.stackOf 0x12345678, m.localOf 0x12345678) = (7, 0x01234678)
    ∧ (m.stackOf 0x9400035000, m.localOf 0x9400035000) = (5, 0x90000D000)
    ∧ (m.stackOf 0xD500000000, m.localOf 0xD500000000) = (5, 0xD00000000) := by decide +kernel

/-- The worked example of an E4M3 output: 250 is stored as 0x78, and 480 overflows to 0x7E, without saturation to 0x7F. -/
theorem test_e4m3_output :
    (encodeF E4M3 false (.fin false 250 0)).1 = 0x78 ∧ (encodeF E4M3 false (.fin false 480 0)).1 = 0x7E
    ∧ (encodeF E4M3 true (.fin false 480 0)).1 = 0x7F := by decide +kernel

/-- Table 2.7: rescale results. -/
theorem test_table_2_7 :
    [8, 12800, 13824, 50000].map (fun a => (rescale a 0x60000000 39 (-5) INT8).1) = [0xFB, 33, 35, 127] := by decide +kernel

/-- The worked example of sticky bits: 2^24 + 1 and a lost product give 2^24 + 2, whatever the lost product's sign. -/
theorem test_sticky_group :
    let p (a b : Nat) : Machine.Num := (decodeF E5M2 a).mul (decodeF E5M2 b)
    groupSum [p 0x6C 0x6C, p 0x3C 0x3C, p 0x14 0x14] = groupSum [p 0x6C 0x6C, p 0x3C 0x3C, p 0x94 0x14]
    ∧ (groupSum [p 0x6C 0x6C, p 0x3C 0x3C, p 0x14 0x14]).pat32 = 0x4B800001 := by decide +kernel

/-- Table 6.12: the record of the worked example. -/
def exampleRecord : W1024 := BitVec.ofNat 1024
  ([0x0000000700111210, 0x28, 0x29, 3, 0, 0, 0, 1, 0, 0xFFF8019800CA0064, 0x0000003FFFFFFFFF, 0x0000005000000018, 0x0002000A00000030,
    0, 0, 0].foldr (fun w x => w + 2 ^ 64 * x) 0)

theorem test_table_6_12 :
    let r := exampleRecord
    (Rc.opcode r, Rc.ver r, Rc.nWait r, Rc.nSig r, Rc.peMask r, Rc.layer r) = (0x10, 2, 1, 1, 1, 7)
    ∧ (Rc.waitFlag r 0, Rc.waitTgt r 0, Rc.sigFlag r 0, Rc.sigVal r 0, Rc.sigSet r) = (40, 3, 41, 1, 0)
    ∧ (List.range 6).map (Rc.desc r) = [100, 101, 102, noDesc, noDesc, noDesc]
    ∧ (opTable.find? (·.code == 0x10)).any (recordForm · r) = true := by decide +kernel

/-- Table 5.4: the descriptor of the worked example. -/
def exampleDesc : W512 := BitVec.ofNat 512
  ([0x00000C0000035913, 0x3F8000003F800000, 0x1333, 0, 0x01000000, 0x00800000, 0x0000100000000400, 0x0000000100000001].foldr
    (fun w x => w + 2 ^ 64 * x) 0)

theorem test_table_5_4 :
    let d := exampleDesc
    (Ds.fmt d, Ds.kind d, Ds.aux d, Ds.rank d, Ds.region d, Ds.pgroup d) = (BF16, 1, 3, 2, 3, 12)
    ∧ Ds.ab d = true ∧ Ds.cur d = false
    ∧ (Ds.addrA d, Ds.addrB d, Ds.auxOff d, Ds.count d) = (0, 0x1000000, 0x800000, 4194304) ∧ Ds.formOk d = true
    ∧ Ds.inRegion d (rgn (32 * 2 ^ 20)) = true ∧ Ds.inRegion d (rgn (32 * 2 ^ 20 - 1)) = false := by decide +kernel

/-- The worked example of four derates: the effective limit is 2,200 W. -/
theorem test_derates : ({ up.set F.PWR_LIMIT_watts 0 2800 with pwr := { up.pwr with cool := [(2200, 42)] } } : Mod).effLimit 5800 = 2200 := by
  decide +kernel

/-- Table 8.10: the routes after the adoption of a spare, in a fabric of 8 x 8 x 4 x 4. -/
theorem test_table_8_10 :
    let m := (((up.set F.RTE_SHAPE_ext_x 0 8).set F.RTE_SHAPE_ext_y 0 8).set F.RTE_SHAPE_ext_z 0 4).set F.RTE_SHAPE_ext_w 0 4
    let m := (m.each (List.range 8) fun m n => m.set F.LNK_STAT_state n 2).installRoutes [(0, 0x00010C2144042143)] [(0, 0x0000000018042143)] 42
    let at_ (x y z w : Nat) : Mod := m.set F.RTE_SELF_phys 0 (x + 64 * y + 4096 * z + 262144 * w)
    (at_ 2 5 2 1).route 0x042143 = some 0x02000046 ∧ (at_ 4 5 2 1).route 0x042143 = some 0x02000000
    ∧ (at_ 4 5 2 3).route 0x042142 = some 0x02000042 ∧ (at_ 2 5 2 1).route 0x042144 = some 0x00000046 := by decide +kernel

/-- R4: little-endian. -/
theorem test_leBytes : leBytes 4 0x12345678 = [0x78, 0x56, 0x34, 0x12] := by decide +kernel

/-- R148: an addition wraps modulo 2^64 and records `ST_FLAG_WRAP`. -/
theorem test_flag_add_wraps :
    let m := after { up with flags := [(5, BitVec.ofNat 64 (2 ^ 64 - 1))] } (.flgAddWrite 5 3)
    m.flag 5 = 2 ∧ m.flog.length = 1 := by decide +kernel

/-- R140: a tail past the end of the ring halts the queue, one at its end does not. -/
theorem test_tail : ((after nopM (.dbTailWrite (.pf 0) 65)).queue 0).halted = some ST_BAD_DOORBELL
    ∧ ((after nopM (.dbTailWrite (.pf 0) 64)).queue 0).tail = 64 := by decide +kernel

/-- R171: a `NOP` issues and then completes; the queue's head moves on by one record. -/
theorem test_nop : ((after nopM (.nop 0)).queue 0).op.isSome = true
    ∧ ((after (after nopM (.nop 0)) (.opComplete 0)).queue 0).head = 1 := by decide +kernel

/-- R231: a fetch-add answers the value before and stores the sum. -/
theorem test_bar4_atomic :
    let m := after { up with mem := [(0, 7)] } (.bar4Atomicop 0 false 0 5 0)
    m.rd 0 4 = [12, 0, 0, 0] ∧ m.out.head? = some (.completion [7, 0, 0, 0] false) := by decide +kernel

/-- R204-R207: a BURST read of one byte of an empty slice moves a granule of 256 bytes, 255 of them waste; a second read finds its line
in the slice and moves nothing. -/
theorem test_burst_read :
    (after up (.bar4Read 0 1 [])).get F.MEM_WASTE_bytes 0 = 255
    ∧ (after (after up (.bar4Read 0 1 [])) (.bar4Read 1 1 [])).get F.MEM_WASTE_bytes 0 = 255 := by decide +kernel

/-- R412: a second arm records `ST_BUSY` and leaves the first. -/
theorem test_stop_arm : (after up .stopArm).get F.TIME_STOP_STAT_state = 1 ∧ (after (after up .stopArm) .stopArm).flog.length = 1 := by
  decide +kernel

/-- R267: a generation is set while its context is disabled, and counted by the enable, modulo 2^16. -/
theorem test_generation : (after (after on63 (.genWr 63 0xFFFF)) (.ctxEnable 63)).get F.CTX_STAT_gen 63 = 0 := by decide +kernel

/-- R311: `STEP_BEGIN` of the step after the committed one opens it. -/
theorem test_step_begin : (after sb (.stepBegin 0)).get F.STEP_STAT_state 0 = 1 := by decide +kernel

/-- R470: a second low flow takes the rails down. -/
theorem test_no_flow :
    (after (after up (.coolantSample 999 20 30)) (.coolantSample 999 20 30)).pwr.rails = .noFlow
    ∧ (after up (.coolantSample 999 20 30)).pwr.rails = .on := by decide +kernel

/-- R8, R11: a 64-bit write of a register, and the two halves of another. -/
theorem test_register_write :
    (after up (.registerWrite (.bar0 R.CTX_RGN_STAGE.base) 8 0x1122334455667788)).get F.CTX_RGN_STAGE_data 0 = 0x1122334455667788
    ∧ (after up (.registerWrite (.bar0 (R.CTX_RGN_STAGE.base + 4)) 4 0xAABBCCDD)).get F.CTX_RGN_STAGE_data 0 = 0xAABBCCDD * 2 ^ 32
    ∧ (after up (.registerWrite (.bar0 (R.CTX_RGN_STAGE.base + 4)) 8 1)).flog.length = 1 := by decide +kernel

end Sys2Proof.Tests
end

section
/-! Multi-byte fields (R4): what the bytes of a number are, and what number they spell. -/

namespace Sys2Proof.Machine

/-- Bytes spell the number they were made from, as far as `n` bytes hold it (R4). -/
@[simp] theorem leNat_leBytes (n x : Nat) : leNat (leBytes n x) = x % 256 ^ n := by
  induction n generalizing x with
  | zero => simp [leBytes, leNat, Nat.mod_one]
  | succ n ih =>
    calc leNat (leBytes (n + 1) x)
        = x % 256 + 256 * (x / 256 % 256 ^ n) := by simp [leBytes, leNat, ih]
      _ = x % (256 * 256 ^ n) := Nat.mod_mul.symm
      _ = x % 256 ^ (n + 1) := by rw [Nat.pow_succ']

/-- Byte `k` of a field is bits [8k+7:8k] of its number (R4). -/
theorem getElem?_leBytes {n k : Nat} (x : Nat) (hk : k < n) :
    (leBytes n x)[k]? = some (BitVec.ofNat 8 (x / 256 ^ k)) := by
  induction n generalizing x k with
  | zero => exact absurd hk k.not_lt_zero
  | succ n ih =>
    cases k with
    | zero => simp [leBytes]
    | succ k =>
      calc (leBytes (n + 1) x)[k + 1]?
          = (leBytes n (x / 256))[k]? := List.getElem?_cons_succ
        _ = some (BitVec.ofNat 8 (x / 256 / 256 ^ k)) := ih (x / 256) (Nat.lt_of_succ_lt_succ hk)
        _ = some (BitVec.ofNat 8 (x / 256 ^ (k + 1))) := by rw [Nat.div_div_eq_div_mul, Nat.pow_succ']

/-- Settles O10: the length, the number read back and each byte, by induction on the number of bytes. -/
theorem littleEndian : Obligations.LittleEndian := fun n x =>
  ⟨length_leBytes n x, leNat_leBytes n x, fun _ hk => getElem?_leBytes x hk⟩

end Sys2Proof.Machine
end

section
/-! The commit of a zone map (R201): what it leaves in each of its three cases, and that a write of its register reaches it. -/

namespace Sys2Proof.Machine

/-- While some context is not disabled, a commit changes nothing but its status (R201). -/
theorem Mod.zoneCommit_of_context {m : Mod} (h : ∃ c, c < 64 ∧ m.ctxState c ≠ 0) :
    m.zoneCommit = m.set F.MEM_ZONE_CTL_status 0 ST_CTX_STATE := by
  obtain ⟨c, hc, hs⟩ := h
  have hany : (List.range 64).any (fun c => m.ctxState c != 0) = true :=
    List.any_eq_true.mpr ⟨c, List.mem_range.mpr hc, bne_iff_ne.mpr hs⟩
  simp only [Mod.zoneCommit, hany, if_true]

section
variable {m : Mod} (hctx : ∀ c, c < 64 → m.ctxState c = 0)
include hctx

/-- The test that a commit makes of the contexts finds none where every one is disabled. -/
theorem Mod.no_context_of_disabled : (List.range 64).any (fun c => m.ctxState c != 0) = false := by
  simpa using hctx

/-- With every context disabled, the commit of a legal map makes it the active one (R198, R201). -/
theorem Mod.zoneCommit_of_legal
    (hmap : (((List.range 64).map m.stagedZone).all zonePlaceOk && zoneMapOk ((List.range 64).map m.stagedZone)) = true) :
    m.zoneCommit = { (m.set F.MEM_ZONE_CTL_status 0 ST_OK) with
      zones := ((List.range 64).zip ((List.range 64).map m.stagedZone)).foldl
        (fun (u : Tab Nat) (e : Nat × Nat) => Tab.set 0 u e.1 e.2) [] } := by
  simp only [Mod.zoneCommit, Mod.no_context_of_disabled hctx, hmap, Bool.not_true, Bool.false_eq_true, if_false]

/-- With every context disabled, the commit of a map that is not legal changes nothing but its status (R198, R201). -/
theorem Mod.zoneCommit_of_illegal
    (hmap : (((List.range 64).map m.stagedZone).all zonePlaceOk && zoneMapOk ((List.range 64).map m.stagedZone)) = false) :
    m.zoneCommit = m.set F.MEM_ZONE_CTL_status 0 ST_BAD_REGION := by
  simp only [Mod.zoneCommit, Mod.no_context_of_disabled hctx, hmap, Bool.not_false, Bool.false_eq_true, if_false, if_true]

end

/-- Where host software reaches the memory block, its command commits the map at once (R201). -/
theorem exec_zoneCommit_of_open {s : State} (h : s.mod.hostOpen Blk.MEM = true) :
    exec .zoneCommit s = .next (s.leave s.mod.zoneCommit.settle) := by
  calc exec .zoneCommit s
      = .next (s.leave (s.mod.host Blk.MEM Mod.zoneCommit)) := State.onMod_eq s fun m => m.host Blk.MEM Mod.zoneCommit
    _ = .next (s.leave s.mod.zoneCommit.settle) := by rw [Mod.host_of_open h]

/-- Settles O29: the three cases of a commit, where host software reaches the memory block. -/
theorem zoneCommit : Obligations.ZoneCommit := by
  intro s hopen
  rw [exec_zoneCommit_of_open hopen]
  refine ⟨fun hctx hmap => ?legal, fun hctx hmap => ?illegal, fun hctx => ?context⟩
  case legal => rw [Mod.zoneCommit_of_legal hctx hmap]
  case illegal => rw [Mod.zoneCommit_of_illegal hctx hmap]
  case context => rw [Mod.zoneCommit_of_context hctx]

end Sys2Proof.Machine
end

section
/-! The generation of a context (R267): what a write of `gen_wr` and the enable (R131) do to it, and that both reach the module
where host software reaches their blocks. -/

namespace Sys2Proof.Machine

/-- A command that is a write of host software takes effect where its block is open, and what waits goes on. -/
theorem State.onMod_host_of_open {s : State} {blk : Nat} (h : s.mod.hostOpen blk = true) (f : Mod → Mod) :
    s.onMod (fun m => m.host blk f) = .next (s.leave (f s.mod).settle) := by
  rw [State.onMod_eq, Mod.host_of_open h]

/-- A disabled context takes the written generation (R267). -/
theorem Mod.genWr_of_disabled {m : Mod} {c : Nat} (h : m.ctxState c = 0) (v : Nat) :
    m.genWr c v = m.set F.CTX_STAT_gen c v := if_pos h

/-- A context in any other state keeps its generation, and the write is recorded (R267). -/
theorem Mod.genWr_of_not_disabled {m : Mod} {c : Nat} (h : m.ctxState c ≠ 0) (v : Nat) :
    m.genWr c v = m.refuseCtx ST_CTX_STATE Blk.LNK c := if_neg h

/-- Where host software reaches the link block, its write of `gen_wr` acts at once (R267). -/
theorem exec_genWr_of_open {s : State} (c : Fin 64) (v : BitVec 16) (h : s.mod.hostOpen Blk.LNK = true) :
    exec (.genWr c v) s = .next (s.leave (s.mod.genWr c v.toNat).settle) :=
  State.onMod_host_of_open h fun m => m.genWr c v.toNat

/-- The first part of an enable that passes its checks: context `c` starts afresh but for its interludes and `kNow`, is `ACTIVE`,
and has its generation counted (R131, R267). -/
def Mod.ctxOpened (m : Mod) (c : Nat) : Mod :=
  ((m.setCtx c { iludes := (m.ctx c).iludes, kNow := (m.ctx c).kNow }).set F.CTX_STAT_state c 1).count F.CTX_STAT_gen c 1

/-- An enable counts the generation modulo 2^16: neither the context's own record nor its state field touches it (R267). -/
theorem Mod.gen_ctxOpened (m : Mod) (c : Nat) :
    (m.ctxOpened c).get F.CTX_STAT_gen c = (m.get F.CTX_STAT_gen c + 1) % 2 ^ 16 := by
  have hstate (n : Mod) : (n.set F.CTX_STAT_state c 1).get F.CTX_STAT_gen c = n.get F.CTX_STAT_gen c :=
    Mod.get_set_same n F.CTX_STAT_state F.CTX_STAT_gen c c 1 rfl rfl (by decide) (by decide)
  have hctx (x : Ctx) : (m.setCtx c x).get F.CTX_STAT_gen c = m.get F.CTX_STAT_gen c := rfl
  rw [Mod.ctxOpened, Mod.count_eq, Mod.get_set_self _ F.CTX_STAT_gen c _ (by decide), hstate, hctx]
  rfl

/-- The enable of a disabled context that passes its checks opens it, and its step controller starts afresh (R131, R312). -/
theorem Mod.ctxEnable_of_ok {m : Mod} {c : Nat} (hdis : m.ctxState c = 0) (hok : m.ctxCheck c = ST_OK) :
    m.ctxEnable c =
      ((((m.ctxOpened c).setRegAt (R.STEP_STAT.base + R.STEP_STAT.stride * c) R.STEP_STAT.reset R.STEP_STAT.reset).set
        F.STEP_COMMITTED_step c 0).set F.STEP_LOSS_CNT_n c 0).ctxHeads c := by
  have hchecked : ¬ m.ctxCheck c ≠ ST_OK := not_not_intro hok
  simp only [Mod.ctxEnable, hdis, Mod.ctxEnableNow, if_neg hchecked, Mod.ctxOpened]

/-- Where host software reaches the context block, its enable acts at once (R131). -/
theorem exec_ctxEnable_of_open {s : State} (c : Fin 64) (h : s.mod.hostOpen Blk.CTX = true) :
    exec (.ctxEnable c) s = .next (s.leave (s.mod.ctxEnable c).settle) :=
  State.onMod_host_of_open h fun m => m.ctxEnable c

/-- Settles O26: a write of `gen_wr` while the context is disabled and while it is not, and the enable. -/
theorem generationWrites : Obligations.GenerationWrites := by
  intro s c v
  refine ⟨fun hopen hdis => ⟨?written, ?reads⟩, fun hopen hother => ?ignored, fun hopen hdis hok m hm => ?enabled⟩
  case written => rw [exec_genWr_of_open c v hopen, Mod.genWr_of_disabled hdis]
  case reads =>
    calc (s.mod.set F.CTX_STAT_gen c v.toNat).get F.CTX_STAT_gen c
        = v.toNat % 2 ^ 16 := Mod.get_set_self s.mod F.CTX_STAT_gen c v.toNat (by decide)
      _ = v.toNat := Nat.mod_eq_of_lt v.isLt
  case ignored => rw [exec_genWr_of_open c v hopen, Mod.genWr_of_not_disabled hother]
  case enabled =>
    obtain rfl : m = s.mod.ctxOpened c := hm
    exact ⟨Mod.gen_ctxOpened s.mod c, by rw [exec_ctxEnable_of_open c hopen, Mod.ctxEnable_of_ok hdis hok]⟩

end Sys2Proof.Machine
end

section
/-! The global stop (R412, R413): what its arming, its cancelling and its taking do in each state of `TIME_STOP_STAT`, and that
each acts where it reaches the module. -/

namespace Sys2Proof.Machine

/-- With no stop pending, the arming names the later of `TIME_STOP_AT` and 1 µs from now, and keeps for the taking whether that was
the second (R412). -/
theorem Mod.stopArm_of_running {m : Mod} (h : m.get F.TIME_STOP_STAT_state = 0) :
    m.stopArm = { (m.set F.TIME_STOP_STAT_state 0 1) with
      stop := { m.stop with at_ := max (m.get F.TIME_STOP_AT_at) (m.time + 1000),
                            late := decide (m.get F.TIME_STOP_AT_at < m.time + 1000) } } :=
  if_neg (not_not_intro h)

/-- With a stop armed or in force, an arming is recorded and leaves that stop as it is (R412). -/
theorem Mod.stopArm_of_pending {m : Mod} (h : m.get F.TIME_STOP_STAT_state ≠ 0) : m.stopArm = m.refuse ST_BUSY Blk.TIME := if_pos h

/-- A stop that is armed and not yet in force is disarmed (R412). -/
theorem Mod.stopCancel_of_armed {m : Mod} (h : m.get F.TIME_STOP_STAT_state = 1) :
    m.stopCancel = m.set F.TIME_STOP_STAT_state 0 0 := if_pos h

/-- With no stop armed, or one in force, there is nothing to cancel (R412). -/
theorem Mod.stopCancel_of_not_armed {m : Mod} (h : m.get F.TIME_STOP_STAT_state ≠ 1) : m.stopCancel = m := if_neg h

/-- An armed stop takes effect at the time its arming named, late where its arming found it so (R412, R413). -/
theorem Mod.stopTake_of_armed {m : Mod} (h : m.get F.TIME_STOP_STAT_state = 1) :
    m.stopTake = ((m.set F.TIME_STOP_STAT_state 0 2).set F.TIME_STOP_TAKEN_taken 0 m.stop.at_).set F.TIME_STOP_STAT_late 0
      (b2n m.stop.late) := by
  calc m.stopTake
      = ((m.set F.TIME_STOP_STAT_state 0 2).set F.TIME_STOP_TAKEN_taken 0 m.stop.at_).set F.TIME_STOP_STAT_late 0
          (b2n ((m.set F.TIME_STOP_STAT_state 0 2).set F.TIME_STOP_TAKEN_taken 0 m.stop.at_).stop.late) :=
        if_neg (not_not_intro h)
    _ = _ := by rw [Mod.set_stop, Mod.set_stop]

/-- Where host software reaches the time base, its write of `arm` acts at once (R412). -/
theorem exec_stopArm_of_open {s : State} (h : s.mod.hostOpen Blk.TIME = true) :
    exec .stopArm s = .next (s.leave s.mod.stopArm.settle) := State.onMod_host_of_open h Mod.stopArm

/-- Where host software reaches the time base, its write of `cancel` acts at once (R412). -/
theorem exec_stopCancel_of_open {s : State} (h : s.mod.hostOpen Blk.TIME = true) :
    exec .stopCancel s = .next (s.leave s.mod.stopCancel.settle) := State.onMod_host_of_open h Mod.stopCancel

/-- An event of what runs through a global stop acts on a module that is powered (R414). -/
theorem State.onMod_always_of_powered {s : State} (h : s.mod.powered = true) (f : Mod → Mod) :
    s.onMod (fun m => m.always f) = .next (s.leave (f s.mod).settle) := by
  rw [State.onMod_eq, Mod.always, if_pos h]

/-- The taking of a stop acts on a powered module (R413). -/
theorem exec_globalStopTake_of_powered {s : State} (h : s.mod.powered = true) :
    exec .globalStopTake s = .next (s.leave s.mod.stopTake.settle) := State.onMod_always_of_powered h Mod.stopTake

/-- Settles O48: the two cases of an arming and of a cancelling, where host software reaches the time base, and the taking. -/
theorem stopArms : Obligations.StopArms := by
  intro s
  refine ⟨fun hopen => ⟨fun hrun => ?armed, fun hpending => ?ignored, fun harmed => ?cancelled, fun hother => ?nothing⟩,
    fun hpow harmed => ?taken⟩
  case armed => rw [exec_stopArm_of_open hopen, Mod.stopArm_of_running hrun]
  case ignored => rw [exec_stopArm_of_open hopen, Mod.stopArm_of_pending hpending]
  case cancelled => rw [exec_stopCancel_of_open hopen, Mod.stopCancel_of_armed harmed]
  case nothing => rw [exec_stopCancel_of_open hopen, Mod.stopCancel_of_not_armed hother]
  case taken => rw [exec_globalStopTake_of_powered hpow, Mod.stopTake_of_armed harmed]

end Sys2Proof.Machine
end

section
/-! The block: what a command leaves whatever it is, and what follows for a step, for the queue of commands and for the pins. -/

namespace Sys2Proof.Machine

/-- The module after command `c`, from the module before it. -/
def Mod.after (m : Mod) (c : Instr) : Mod := (executed { mod := m, pins := m.pins, pending := [] } c).mod

/-- Every command changes the module by a function of the module alone, and the pins follow (Table 15.12): what waits neither
changes nor matters, and no command ends in a fault or a refusal. -/
theorem exec_eq (c : Instr) (s : State) : exec c s = .next (s.leave (s.mod.after c)) := by
  cases c <;> rfl

/-- What a command leaves has pins that agree with the module. -/
theorem State.pinsAgree_leave (s : State) (m : Mod) : (s.leave m).pinsAgree := rfl

/-- Settles O3: the pins and the queue of what a change of the module leaves. -/
theorem everyCommandAnswers : Obligations.EveryCommandAnswers := by
  intro c s
  exact ⟨s.leave (s.mod.after c), exec_eq c s, s.leave_pending _, s.pinsAgree_leave _⟩

/-- Settles O1. -/
theorem stepTakesFront : Obligations.StepTakesFront := by
  intro s c rest h
  simp only [step, h]

/-! ### The pins -/

/-- The passing of time alone moves no pin. -/
@[simp] theorem Mod.pins_tick (m : Mod) : m.tick.pins = m.pins := by
  unfold Mod.tick
  split
  · rfl
  · rfl

/-- The pins of any module are a combination that Table 15.12 allows: all of them follow `PWR_OK`. -/
theorem Mod.pins_legal (m : Mod) : m.pins.legal := by
  refine ⟨by simp [Mod.pins], by simp [Mod.pins], fun htrip => ?trip, fun halert => ?alert, fun hlow => ?low⟩
  case trip =>
    have hr : m.pwr.rails = .trip := by simpa [Mod.pins] using htrip
    simp [Mod.pins, Mod.powered, hr]
  case alert =>
    simp only [Mod.pins, Bool.and_eq_true] at halert ⊢
    simp [halert.1.1]
  case low =>
    have hp : m.powered = false := by simpa [Mod.pins] using hlow
    refine ⟨hp, fun x hx => ?_, fun x hx => ?_⟩
    · obtain ⟨n, -, rfl⟩ := List.mem_map.mp hx
      unfold Mod.portTx
      split
      · exact .inr rfl
      · exact .inl (if_pos (by simp [hp]))
    · obtain ⟨n, -, rfl⟩ := List.mem_map.mp hx
      unfold Mod.portRx
      simp only [hp, Bool.not_false, Bool.true_or, if_true]
      split <;> decide

/-- Settles O4: a step either lets time pass, which moves no pin, or executes a command, after which the pins agree. -/
theorem pinsInvariant : Obligations.PinsInvariant := by
  intro s t hs ht
  suffices h : t.pinsAgree from ⟨h, h ▸ t.mod.pins_legal⟩
  cases hq : s.pending with
  | nil =>
    obtain rfl : idle s = t := by simpa [step, hq] using ht
    exact hs.trans s.mod.pins_tick.symm
  | cons c rest =>
    obtain rfl : State.leave { s with pending := rest } (s.mod.after c) = t := by simpa [step, hq, exec_eq] using ht
    exact State.pinsAgree_leave _ _

/-- Settles O7: the tables of the pins at reset are those of a module whose rails wait for flow. -/
theorem pinsAgreeAtReset : Obligations.PinsAgreeAtReset := by
  refine ⟨?agree, rfl, rfl, rfl, rfl, ?rx, ?legal⟩
  case agree => show State.reset.pins = State.reset.mod.pins; decide
  case rx => decide
  case legal =>
    have h : State.reset.pins = State.reset.mod.pins := by decide
    exact h ▸ Mod.pins_legal _

/-! ### The queue of commands -/

/-- Settles O2: of a module that does not tick its time base nothing changes. -/
theorem idleStep : Obligations.IdleStep := by
  intro s hq
  have hstep : step s = .next { s with mod := s.mod.tick } := by simp [step, hq, idle]
  refine ⟨fun hr => ?runs, fun hon hwait => ?stands⟩
  case runs =>
    have h : (s.mod.pwr.rails == .on || s.mod.pwr.rails == .waitFlow) = true := by simpa using hr
    rw [hstep, Mod.tick, if_pos h]
  case stands =>
    have h : ¬ (s.mod.pwr.rails == .on || s.mod.pwr.rails == .waitFlow) = true := by simp [hon, hwait]
    rw [hstep, Mod.tick, if_neg h]

/-- What a command leaves, but for the commands that wait, is the same whatever waits. -/
theorem exec_with_pending (c : Instr) (s : State) (l : List Instr) :
    exec c { s with pending := l } = .next { executed { s with pending := [] } c with pending := l } := by
  simp [executed, exec_eq, State.leave]

/-- The commands that wait in `l` are executed each once, in their order. -/
theorem steps_of_pending (l : List Instr) :
    ∀ s : State, steps l.length { s with pending := l } = .next (l.foldl executed { s with pending := [] }) := by
  induction l with
  | nil => exact fun _ => rfl
  | cons c l ih =>
    intro s
    have hnone : { executed { s with pending := [] } c with pending := [] } = executed { s with pending := [] } c := by
      simp [executed, exec_eq, State.leave]
    calc steps (c :: l).length { s with pending := c :: l }
        = steps l.length { executed { s with pending := [] } c with pending := l } := by
          simp [steps, step, exec_with_pending c s l]
      _ = .next (l.foldl executed (executed { s with pending := [] } c)) := by rw [ih, hnone]

/-- Settles O6, by induction on the commands that wait. -/
theorem queueDrains : Obligations.QueueDrains := fun s => steps_of_pending s.pending s

/-! ### What stands still -/

/-- A command that leaves the module as it is leaves only the pins to follow. -/
theorem State.onMod_of_fixed {s : State} {f : Mod → Mod} (h : f s.mod = s.mod) : s.onMod f = .next (s.leave s.mod) := by
  rw [State.onMod_eq, h]

section
variable {s : State} (h : s.mod.powered = false)
include h

/-- Without rails no event that needs them happens (R418, R453). -/
theorem State.onMod_always_of_not_powered (f : Mod → Mod) : s.onMod (fun m => m.always f) = .next (s.leave s.mod) :=
  State.onMod_of_fixed (by simp [Mod.always, h])

/-- Without rails no link brings an event. -/
theorem State.onMod_link_of_not_powered (f : Mod → Mod) : s.onMod (fun m => m.link f) = .next (s.leave s.mod) :=
  State.onMod_of_fixed (by simp [Mod.link, Mod.always, h])

/-- Without rails no register takes a write. -/
theorem State.onMod_host_of_not_powered (blk : Nat) (f : Mod → Mod) : s.onMod (fun m => m.host blk f) = .next (s.leave s.mod) :=
  State.onMod_of_fixed (by simp [Mod.host, h])

/-- Without rails no doorbell takes a write. -/
theorem State.onMod_doorbell_of_not_powered (d : Door) (f : Mod → Nat → Mod) :
    s.onMod (fun m => m.doorbell d f) = .next (s.leave s.mod) :=
  State.onMod_of_fixed (by simp [Mod.doorbell, h])

/-- Without rails no access to BAR0 arrives. -/
theorem State.onMod_bar0_of_not_powered (f : Mod → Mod) : s.onMod (fun m => m.bar0 f) = .next (s.leave s.mod) :=
  State.onMod_of_fixed (by simp [Mod.bar0, h])
end

/-- While the engines stand still none of their events happens (R414). -/
theorem State.onMod_engine_of_not_works {s : State} (h : s.mod.works = false) (f : Mod → Mod) :
    s.onMod (fun m => m.engine f) = .next (s.leave s.mod) :=
  State.onMod_of_fixed (f := fun m => m.engine f) (Mod.engine_of_not_works h f)

/-- Every command of the engines passes the one gate that a global stop closes (R414). -/
theorem exec_of_engines {c : Instr} (h : moverOf c = .engines) {s : State} (hw : s.mod.works = false) :
    exec c s = .next (s.leave s.mod) := by
  cases c <;> cases h <;> exact State.onMod_engine_of_not_works hw _

/-- Every command of the power passes one of the five gates that need the rails (R418, R453). -/
theorem exec_of_power {c : Instr} (h : moverOf c = .power) {s : State} (hp : s.mod.powered = false) :
    exec c s = .next (s.leave s.mod) := by
  cases c <;> cases h
  case dbTailWrite | dbResumeSkip | dbResumeRetry | dbFlagValWrite | dbFlagAddWrite =>
    exact State.onMod_doorbell_of_not_powered hp _ _
  case peerDetected | trainingComplete | laneFail | dataFlitReceive | keepaliveSend | keepaliveReceive | keepaliveTimeout
      | autoRetrain => exact State.onMod_link_of_not_powered hp _
  case bar0NoResponse => exact State.onMod_bar0_of_not_powered hp _
  case bar4Read | bar4Write | bar4Atomicop | bar4Resize | memorySideWake | stackTempSample | stackCooledReturn | partResetComplete
      | armatureWatchdogExpiry | dumpCaptureDone | globalStopTake | globalStopResume | bringupReady | pcieLinkDown | flrVf | flrPf0
      | msixUnmask | powerSample | msTransitionDone | pcieLinkUp | vfEnable | stackParityError | stackPhyLinkLoss
      | calibrationRecordWrite => exact State.onMod_always_of_not_powered hp _
  all_goals exact State.onMod_host_of_not_powered hp _ _

/-- Settles O5: the gates of the two kinds of commands. -/
theorem standingEngines : Obligations.StandingEngines :=
  fun _ _ => ⟨fun h hw => exec_of_engines h hw, fun h hp => exec_of_power h hp⟩

/-! ### Reset, and what follows a command -/

/-- Settles O9: the first round already leaves the module as it is. -/
theorem settleOfQuiet : Obligations.SettleOfQuiet := by
  intro m ⟨hloop, hround⟩
  unfold Mod.settle
  split
  · simp [Mod.rounds, hround, hloop]
  · rfl

/-- Settles O8: the tables of a module at reset list nothing, so each entry and each field reads as its default. -/
theorem resetLeaves : Obligations.ResetLeaves :=
  ⟨rfl, rfl, rfl, rfl, fun _ => ⟨rfl, rfl⟩, fun _ => ⟨rfl, rfl, rfl, rfl⟩, fun _ => rfl, fun _ => rfl⟩

end Sys2Proof.Machine
end

section
/-! Module memory (R128, R197, R199, R208, R221): what a store of consecutive bytes reads as, that the map of reset keeps addresses
apart, which words a store clears of poison, and what a record does to its ring. -/

namespace Sys2Proof.Machine

/-! ### Bytes -/

/-- An access of the slices leaves the partitions as they were. -/
@[simp] theorem Mod.reach_parts (m : Mod) (fine : Bool) (acc : Acc) (pa n : Nat) : (m.reach fine acc pa n).parts = m.parts := by
  obtain ⟨r, s, h, -⟩ := sliceOnly_reach (P := fun _ => True) m fine acc pa n (fun _ _ _ _ => trivial)
  rw [h]

/-- A store leaves the zone map as it was. -/
@[simp] theorem Mod.wrList_zones (m : Mod) (ws : List (Nat × Byte)) : (m.wrList ws).zones = m.zones := by
  obtain ⟨p, h⟩ := m.wrList_eq ws
  rw [h]

/-- A store does not move the byte that an address names. -/
theorem Mod.key_wr (m : Mod) (pa : Nat) (l : List Byte) (fine : Bool) (a : Nat) : (m.wr pa l fine).key a = m.key a :=
  Mod.key_congr (by simp [Mod.wr]) a

@[simp] theorem length_atAddr (pa : Nat) (l : List Byte) : (atAddr pa l).length = l.length := by simp [atAddr]

theorem getElem_atAddr (pa : Nat) (l : List Byte) {j : Nat} (hj : j < (atAddr pa l).length) :
    (atAddr pa l)[j] = (pa + j, l[j]'(by simpa using hj)) := by simp [atAddr]

/-- The bytes of a store, cut at the one for `pa + j`. -/
theorem atAddr_split (pa : Nat) (l : List Byte) {j : Nat} (hj : j < l.length) :
    atAddr pa l = (atAddr pa l).take j ++ (pa + j, l[j]) :: (atAddr pa l).drop (j + 1) := by
  have hj' : j < (atAddr pa l).length := by simpa using hj
  rw [← getElem_atAddr pa l hj', ← List.drop_eq_getElem_cons hj', List.take_append_drop]

/-- The bytes of a store after the one for `pa + j` go to higher addresses. -/
theorem mem_drop_atAddr {pa j : Nat} {l : List Byte} {w : Nat × Byte} (h : w ∈ (atAddr pa l).drop (j + 1)) :
    ∃ i, j < i ∧ i < l.length ∧ w.1 = pa + i := by
  obtain ⟨k, hk, rfl⟩ := List.getElem_of_mem h
  have hk' : j + 1 + k < l.length := by simp at hk; omega
  exact ⟨j + 1 + k, by omega, hk', by simp [getElem_atAddr]⟩

/-- Settles O11. -/
theorem memoryStores : Obligations.MemoryStores := by
  intro m pa l fine
  refine ⟨fun h => Mod.wr_memWf h pa l fine, fun k hk => ?other, fun j hj hlast => ?stored⟩
  case other =>
    rw [Mod.byteAt, Mod.wr_mem]
    refine get_storeAll_ne m k _ m.mem fun w hw => ?_
    obtain ⟨j, hj, hwj⟩ := mem_atAddr hw
    exact hwj ▸ hk j hj
  case stored =>
    rw [Mod.rdByte, Mod.key_wr, Mod.wr_mem, atAddr_split pa l hj]
    refine (get_storeAll_last m (pa + j, l[j]) _ _ m.mem fun x hx => ?_).trans (by simp [hj])
    obtain ⟨i, hji, hi, hxi⟩ := mem_drop_atAddr hx
    exact hxi ▸ hlast i hji hi

/-! ### The map of reset -/

/-- The low bits of a number are its bits below any place and those from there on. -/
theorem bits_append (x i j : Nat) : bits x 0 (i + j) = bits x 0 i + 2 ^ i * bits x i j := by
  simp only [bits, Nat.shiftRight_eq_div_pow, Nat.pow_zero, Nat.div_one]
  rw [Nat.pow_add, Nat.mod_mul]

/-- A field within a field. -/
theorem bits_bits {n k j : Nat} (x lo : Nat) (h : k + j ≤ n) : bits (bits x lo n) k j = bits x (lo + k) j := by
  apply Nat.eq_of_testBit_eq
  intro i
  rw [testBit_bits, testBit_bits, testBit_bits, Nat.add_assoc]
  by_cases hi : i < j
  · have : k + i < n := by omega
    simp [this]
  · simp [hi]

/-- A number of `n` bits is its low `n` bits. -/
theorem bits_of_lt {x n : Nat} (h : x < 2 ^ n) : bits x 0 n = x := Nat.mod_eq_of_lt h

section
variable {m : Mod} (h : m.zones = [])
include h

theorem Mod.zoneKind_of_reset (z : Nat) : m.zoneKind z = 0 := by simp [Mod.zoneKind, h, Tab.get]

/-- In the map of reset each zone takes 2^30 bytes of every stack (R199). -/
theorem Mod.zoneBase_of_reset (s z : Nat) : m.zoneBase s z = z * 2 ^ 30 := by
  induction z with
  | zero => rfl
  | succ z ih => simp only [Mod.zoneBase, ih, Mod.zoneKind_of_reset h, zoneShare, if_true]; omega

theorem Mod.stackOf_of_reset (pa : Nat) : m.stackOf pa = bits pa 12 4 ^^^ bits pa 20 4 ^^^ bits pa 28 4 := by
  simp only [Mod.stackOf, Mod.zoneKind_of_reset h]

theorem Mod.localOf_of_reset (pa : Nat) :
    m.localOf pa = bits pa 34 6 * 2 ^ 30 + (bits pa 16 18 * 4096 + bits pa 0 12) := by
  simp only [Mod.localOf, Mod.zoneKind_of_reset h, Mod.zoneBase_of_reset h]

/-- Stack and stack-local address can be read off the byte that an address names. -/
theorem Mod.stack_local_of_key {a b : Nat} (hk : m.key a = m.key b) : m.stackOf a = m.stackOf b ∧ m.localOf a = m.localOf b := by
  have hlt (pa : Nat) : m.localOf pa < 2 ^ 36 := by
    rw [Mod.localOf_of_reset h]
    have h1 := bits_lt pa 34 6
    have h2 := bits_lt pa 16 18
    have h3 := bits_lt pa 0 12
    omega
  have ha := hlt a
  have hb := hlt b
  simp only [Mod.key] at hk
  omega

end

/-- Settles O12: equal stack-local addresses agree in bits 0 to 11 and 16 to 39; the bits 12 to 15 follow from the stack, since the
other bits that it mixes are among those. -/
theorem addressesApart : Obligations.AddressesApart := by
  intro m a b hz ha hb hk
  obtain ⟨hs, hl⟩ := Mod.stack_local_of_key hz hk
  rw [Mod.localOf_of_reset hz, Mod.localOf_of_reset hz] at hl
  obtain ⟨h34, h16, h0⟩ : bits a 34 6 = bits b 34 6 ∧ bits a 16 18 = bits b 16 18 ∧ bits a 0 12 = bits b 0 12 := by
    have ha16 := bits_lt a 16 18
    have hb16 := bits_lt b 16 18
    have ha0 := bits_lt a 0 12
    have hb0 := bits_lt b 0 12
    omega
  have h20 : bits a 20 4 = bits b 20 4 := by
    rw [← bits_bits (n := 18) (k := 4) a 16 (by decide), h16, bits_bits b 16 (by decide)]
  have h28 : bits a 28 4 = bits b 28 4 := by
    rw [← bits_bits (n := 18) (k := 12) a 16 (by decide), h16, bits_bits b 16 (by decide)]
  have h12 : bits a 12 4 = bits b 12 4 := by
    rwa [Mod.stackOf_of_reset hz, Mod.stackOf_of_reset hz, h20, h28, Nat.xor_left_inj, Nat.xor_left_inj] at hs
  have whole (x : Nat) (hx : x < 2 ^ 40) :
      x = bits x 0 12 + 2 ^ 12 * bits x 12 4 + 2 ^ 16 * bits x 16 18 + 2 ^ 34 * bits x 34 6 := by
    rw [← bits_append x 12 4, ← bits_append x 16 18, ← bits_append x 34 6, bits_of_lt hx]
  rw [whole a ha, whole b hb, h0, h12, h16, h34]

/-! ### Poison -/

/-- A word just marked reads as marked, every other word as before (R220). -/
theorem Mod.wordPoisoned_setPoison (m : Mod) (w x : Nat) (p : Bool) :
    (m.setPoison w p).wordPoisoned x = if x = w then p else m.wordPoisoned x := by
  have hpart (i : Nat) : (m.setPoison w p).part i = m.part i := rfl
  simp only [Mod.wordPoisoned, hpart]
  split
  · subst x
    simp [Mod.setPoison]
  · rename_i hne
    simp [Mod.setPoison, Tab.get_set_ne _ hne]

/-- What a store of the bytes `ws` does for the byte `w` of them: the word that starts there loses its poison if the bytes cover it
whole (R221). -/
def Mod.clearWhole (ws : List (Nat × Byte)) (m : Mod) (w : Nat × Byte) : Mod :=
  if w.1 % 8 = 0 && m.poisoned w.1 && (List.range 8).all (fun j => ws.any fun x => x.1 == w.1 + j) then
    m.setPoison (m.key w.1 / 8) false
  else m

/-- A store puts its bytes and then clears the words that they cover whole. -/
theorem Mod.wrList_eq_clearWhole (m : Mod) (ws : List (Nat × Byte)) :
    m.wrList ws = ws.foldl (Mod.clearWhole ws) { m with mem := storeAll m m.mem ws } := by
  simp only [Mod.wrList, foldl_wrByte]
  rfl

@[simp] theorem Mod.clearWhole_zones (ws : List (Nat × Byte)) (m : Mod) (w : Nat × Byte) :
    (m.clearWhole ws w).zones = m.zones := by unfold Mod.clearWhole; split <;> rfl

/-- A word that no byte of the list starts, or that the store does not cover whole, keeps its poison. -/
theorem wordPoisoned_foldl_of_ne (ws : List (Nat × Byte)) (k : Mod) (x : Nat) (l : List (Nat × Byte))
    (h : ∀ w ∈ l, w.1 % 8 = 0 → ((List.range 8).all fun j => ws.any fun y => y.1 == w.1 + j) = true → k.key w.1 / 8 ≠ x) :
    ∀ m : Mod, m.zones = k.zones → (l.foldl (Mod.clearWhole ws) m).wordPoisoned x = m.wordPoisoned x := by
  induction l with
  | nil => exact fun _ _ => rfl
  | cons w l ih =>
    intro m hm
    have hrest := ih (fun y hy => h y (List.mem_cons_of_mem _ hy)) (m.clearWhole ws w) (by simpa using hm)
    refine hrest.trans ?_
    unfold Mod.clearWhole
    split
    · rename_i hc
      simp only [Bool.and_eq_true, decide_eq_true_eq] at hc
      have hne := h w (List.mem_cons_self ..) hc.1.1 hc.2
      rw [Mod.wordPoisoned_setPoison, if_neg fun e => hne (by rw [← Mod.key_congr hm, e])]
    · rfl

/-- A word without poison has none after a store. -/
theorem not_wordPoisoned_foldl (ws : List (Nat × Byte)) (x : Nat) (l : List (Nat × Byte)) :
    ∀ m : Mod, m.wordPoisoned x = false → (l.foldl (Mod.clearWhole ws) m).wordPoisoned x = false := by
  induction l with
  | nil => exact fun _ h => h
  | cons w l ih =>
    intro m h
    refine ih _ ?_
    unfold Mod.clearWhole
    split
    · rw [Mod.wordPoisoned_setPoison]; split
      · rfl
      · exact h
    · exact h

/-- The word that starts at a byte of the list has no poison after it, where the store covers it whole. -/
theorem not_wordPoisoned_foldl_of_mem (ws : List (Nat × Byte)) (k : Mod) {w : Nat × Byte} (h8 : w.1 % 8 = 0)
    (hall : ((List.range 8).all fun j => ws.any fun y => y.1 == w.1 + j) = true) {l : List (Nat × Byte)} (hw : w ∈ l) :
    ∀ m : Mod, m.zones = k.zones → (l.foldl (Mod.clearWhole ws) m).wordPoisoned (k.key w.1 / 8) = false := by
  induction l with
  | nil => exact absurd hw (List.not_mem_nil)
  | cons y l ih =>
    intro m hm
    rcases List.mem_cons.mp hw with rfl | hw
    · refine not_wordPoisoned_foldl ws _ l _ ?_
      unfold Mod.clearWhole
      split
      · rw [Mod.wordPoisoned_setPoison, if_pos (by rw [Mod.key_congr hm])]
      · rename_i hc
        have : m.poisoned w.1 = false := by simpa [h8, hall] using hc
        rwa [Mod.poisoned, Mod.key_congr hm] at this
    · exact ih hw _ (by simpa using hm)

/-- The bytes of consecutive addresses cover the word of an aligned address if they reach from it to its last byte. -/
theorem covers_atAddr_iff (pa : Nat) (l : List Byte) (a : Nat) :
    ((List.range 8).all fun j => (atAddr pa l).any fun y => y.1 == a + j) = true ↔ pa ≤ a ∧ a + 8 ≤ pa + l.length := by
  have hmem (x : Nat) : ((atAddr pa l).any fun y => y.1 == x) = true ↔ pa ≤ x ∧ x < pa + l.length := by
    simp only [List.any_eq_true, beq_iff_eq]
    constructor
    · rintro ⟨y, hy, rfl⟩
      obtain ⟨j, hj, hyj⟩ := mem_atAddr hy
      omega
    · intro ⟨h1, h2⟩
      have hj : x - pa < (atAddr pa l).length := by simp; omega
      exact ⟨_, List.getElem_mem hj, by rw [getElem_atAddr]; simp; omega⟩
  simp only [List.all_eq_true, List.mem_range, hmem]
  constructor
  · intro h
    have h0 := h 0 (by decide)
    have h7 := h 7 (by decide)
    omega
  · intro h j hj
    omega

/-- The poison of a word after a store is what the store of the bytes alone leaves. -/
theorem Mod.wordPoisoned_wr (m : Mod) (pa : Nat) (l : List Byte) (fine : Bool) (w : Nat) :
    (m.wr pa l fine).wordPoisoned w = (m.wrList (atAddr pa l)).wordPoisoned w := by
  simp only [Mod.wordPoisoned, Mod.part, Mod.wr, Mod.reach_poison, Mod.reach_parts]

/-- Settles O13. -/
theorem wholeWritesClearPoison : Obligations.WholeWritesClearPoison := by
  intro m pa l fine w
  refine ⟨fun hpart => ?kept, fun a h1 h2 h8 => ?cleared⟩
  case kept =>
    rw [Mod.wordPoisoned_wr, Mod.wrList_eq_clearWhole]
    refine wordPoisoned_foldl_of_ne (atAddr pa l) m w (atAddr pa l) (fun y hy h8 hall => ?_)
      { m with mem := storeAll m m.mem (atAddr pa l) } rfl
    obtain ⟨h1, h2⟩ := (covers_atAddr_iff pa l y.1).mp hall
    exact hpart y.1 h1 h2 h8
  case cleared =>
    have hj : a - pa < (atAddr pa l).length := by simp; omega
    have ha : ((atAddr pa l)[a - pa]).1 = a := by rw [getElem_atAddr]; simp; omega
    have h := not_wordPoisoned_foldl_of_mem (atAddr pa l) m (w := (atAddr pa l)[a - pa]) (ha.symm ▸ h8)
      (by rw [ha]; exact (covers_atAddr_iff pa l a).mpr ⟨h1, h2⟩) (List.getElem_mem hj)
      { m with mem := storeAll m m.mem (atAddr pa l) } rfl
    rw [Mod.wordPoisoned_wr, Mod.wrList_eq_clearWhole]
    rwa [ha] at h

/-! ### Rings -/

/-- Settles O14: the test for a full ring and its two outcomes. -/
theorem ringWrites : Obligations.RingWrites := by
  intro m base n i l
  refine ⟨fun hfull => ?dropped, fun hroom => ?written⟩
  case dropped => exact if_pos hfull
  case written => exact if_neg hroom

end Sys2Proof.Machine
end

section
/-! Commands that reach their block: each gate lets the command's own effect through, and what waits goes on (log entry 13). -/

namespace Sys2Proof.Machine

section
variable {s : State} {f : Mod → Mod} {m : Mod}

/-- An event of the engines, while they run, leaves what its effect leaves, settled (R414). -/
theorem State.onMod_engine_eq (hw : s.mod.works = true) (h : f s.mod = m) :
    s.onMod (fun m => m.engine f) = .next (s.leave m.settle) := by
  rw [State.onMod_eq, Mod.engine_of_works hw, h]

/-- A write of host software that its block takes leaves what its effect leaves, settled (R12, R371, R414, R427). -/
theorem State.onMod_host_eq {blk : Nat} (ho : s.mod.hostOpen blk = true) (h : f s.mod = m) :
    s.onMod (fun m => m.host blk f) = .next (s.leave m.settle) := by
  rw [State.onMod_eq, Mod.host_of_open ho, h]

/-- An event of a powered module leaves what its effect leaves, settled (R418). -/
theorem State.onMod_always_eq (hp : s.mod.powered = true) (h : f s.mod = m) :
    s.onMod (fun m => m.always f) = .next (s.leave m.settle) := by
  rw [State.onMod_eq, Mod.always_of_powered hp, h]

/-- An event of a link that reaches the module leaves what its effect leaves, settled (R446). -/
theorem State.onMod_link_eq (hl : s.mod.linkOpen = true) (h : f s.mod = m) :
    s.onMod (fun m => m.link f) = .next (s.leave m.settle) := by
  rw [State.onMod_eq, Mod.link_of_open hl, h]

/-- A write to a doorbell page that reaches its queue leaves what its effect leaves, settled (R133). -/
theorem State.onMod_doorbell_eq {d : Door} {i : Nat} {f : Mod → Nat → Mod} (hd : s.mod.doorOpen d i = true) (h : f s.mod i = m) :
    s.onMod (fun m => m.doorbell d f) = .next (s.leave m.settle) := by
  rw [State.onMod_eq, Mod.doorbell_of_open hd, h]

/-- A command that no gate holds leaves what its effect leaves. -/
theorem State.onMod_next (h : f s.mod = m) : s.onMod f = .next (s.leave m) := by rw [State.onMod_eq, h]

end

/-- A record that issues leaves what its operation leaves, carried out once it is marked issued (R142, R170). -/
theorem Mod.issue_eq {m k : Mod} {i code : Nat} {chk : Mod → W1024 → List Cap → Status} {r : W1024} {caps : List Cap}
    {run : Mod → W1024 → List Cap → Mod} (hi : m.issues i code chk r caps = true) (h : run (m.begun i code r caps) r caps = k) :
    m.issue i code chk run = k := (Mod.issue_of_issues hi run).trans h

end Sys2Proof.Machine
end

section
/-! Records (chapters 5, 6, 9, 10): what each leaves when it issues. -/

namespace Sys2Proof.Machine

/-! ### Records that run in one pass (R174-R185) -/

/-- Each of these records issues under its own opcode and checks. -/
theorem exec_runRecord {s : State} {q : Fin 1024} {errs : List MemErr} {e : Instr × Nat × (Mod → W1024 → List Cap → Status)}
    (he : e ∈ runRecords q errs) (hw : s.mod.works = true) :
    exec e.1 s = .next (s.leave ((s.mod.sramErrors errs).issueRun q e.2.1 errs e.2.2).settle) := by
  simp only [runRecords, List.mem_cons, List.not_mem_nil, or_false] at he
  rcases he with rfl | rfl | rfl | rfl | rfl | rfl | rfl | rfl | rfl | rfl | rfl <;>
    exact State.onMod_engine_eq hw rfl

/-- A run that is not skipped and outlives the memory errors that its reads meet sets its results for its end (R219, R220). -/
theorem Mod.runNow_of_running {m : Mod} {i : Nat} {errs : List MemErr} {r : W1024} {caps : List Cap}
    (hskip : (isCompute (Rc.opcode r) && m.skipped (qCtx i)) = false) (hrun : (m.meetErrors (some i) 0 errs).running i = true) :
    m.runNow i errs r caps = ((m.meetErrors (some i) 0 errs).readOps r caps).runFirst i
      (((m.meetErrors (some i) 0 errs).readOps r caps).runOf r caps []).1 (strictIdx r)
      (((m.meetErrors (some i) 0 errs).readOps r caps).runOf r caps []).2 := by
  simp [Mod.runNow, hskip, hrun]

/-- A matrix or vector record in an abandoned step does no work (R320). -/
theorem Mod.runNow_of_skipped {m : Mod} {i : Nat} (errs : List MemErr) {r : W1024} {caps : List Cap}
    (hskip : (isCompute (Rc.opcode r) && m.skipped (qCtx i)) = true) :
    m.runNow i errs r caps = m.skipOp i (opOutAddrs r caps) := if_pos hskip

/-- Settles O15. -/
theorem recordsRun : Obligations.RecordsRun := by
  refine ⟨fun s q errs r caps e he hw hi hskip hrun => ?runs, fun s q errs r caps e he hcomp hw hi hskip => ?skipped⟩
  case runs =>
    rw [exec_runRecord he hw, Mod.issueRun, Mod.issue_of_issues hi, Mod.runNow_of_running _ hrun]
    rwa [Mod.opcode_of_issues hi]
  case skipped =>
    rw [exec_runRecord he hw, Mod.issueRun, Mod.issue_of_issues hi, Mod.runNow_of_skipped errs]
    · rfl
    · rw [Mod.opcode_of_issues hi, hcomp, hskip, Bool.and_self]

/-! ### Records that start (R165, R166, R171, R184, R186, R187) -/

/-- Settles O16: each record issues, and starts unless a memory error that it met has stopped it. -/
theorem recordsStart : Obligations.RecordsStart := by
  refine ⟨fun s q r caps hw hi => ?nop, fun s q errs r caps hw => ⟨fun hi hrun => ?copy, fun hi hrun => ?hostXfer,
    fun hi hrun => ?scatterReduce, fun hi hrun => ?atomicCas, fun hi => ?prefetchList⟩⟩
  case nop => exact State.onMod_engine_eq hw (Mod.issue_eq hi rfl)
  case copy => exact State.onMod_engine_eq hw (Mod.issue_eq hi (if_pos hrun))
  case hostXfer => exact State.onMod_engine_eq hw (Mod.issue_eq hi (if_pos hrun))
  case scatterReduce => exact State.onMod_engine_eq hw (Mod.issue_eq hi (if_pos hrun))
  case atomicCas => exact State.onMod_engine_eq hw (Mod.issue_eq hi (if_pos hrun))
  case prefetchList =>
    refine State.onMod_engine_eq hw ?_
    unfold Mod.issuePrefetchList
    exact (Mod.issue_of_issues hi _).trans rfl

/-! ### Collectives (R273, R287, R309) -/

/-- Each of these records issues under its own opcode. -/
theorem exec_ringRecord {s : State} {q : Fin 1024} {errs : List MemErr} {e : Instr × Nat} (he : e ∈ ringRecords q errs)
    (hw : s.mod.works = true) :
    exec e.1 s = .next (s.leave ((s.mod.sramErrors errs).issueColl q e.2 errs).settle) := by
  simp only [ringRecords, List.mem_cons, List.not_mem_nil, or_false] at he
  rcases he with rfl | rfl | rfl | rfl | rfl <;> exact State.onMod_engine_eq hw rfl

/-- Settles O17: a collective that meets no error that stops it joins the list of its link die. -/
theorem collectiveRecordsWait : Obligations.CollectiveRecordsWait := by
  intro s q errs r caps hw waits
  refine ⟨?ring, ?update⟩
  case ring =>
    intro e he hi m hrun
    rw [exec_ringRecord he hw, Mod.issueColl, Mod.issue_eq hi (if_pos hrun)]
    rfl
  case update =>
    intro hi m c named prot m1 hrun
    exact State.onMod_engine_eq hw (Mod.issue_eq hi (if_pos hrun))

/-! ### Step records (R190, R296, R311, R313, R318, R322) -/

/-- Settles O18. -/
theorem stepRecordsRun : Obligations.StepRecordsRun := by
  intro s q r caps hw
  refine ⟨fun hi hcap => ?noToken, fun x hi hcap => ⟨fun hgood => ?token, fun hbad => ?poisoned⟩, fun hi => ?stepEnd,
    fun hi => ?vote, fun hi hpass => ?flips, fun hi hfail => ?closes⟩
  case noToken => exact State.onMod_engine_eq hw (Mod.issue_eq hi (by simp only [hcap]))
  case token => exact State.onMod_engine_eq hw (Mod.issue_eq hi (by simp only [hcap, hgood, Bool.false_eq_true, if_false]))
  case poisoned => exact State.onMod_engine_eq hw (Mod.issue_eq hi (by simp only [hcap, hbad, if_true]))
  case stepEnd => exact State.onMod_engine_eq hw (Mod.issue_eq hi rfl)
  case vote => exact State.onMod_engine_eq hw (Mod.issue_eq hi rfl)
  case flips => exact State.onMod_engine_eq hw (Mod.issue_eq hi (if_pos hpass))
  case closes => exact State.onMod_engine_eq hw (Mod.issue_eq hi (if_neg hfail))

end Sys2Proof.Machine
end

section
/-! Doorbells, flags, contexts, regions, queues and descriptors (chapter 5): what each command does in each of its cases. -/

namespace Sys2Proof.Machine

/-! ### Doorbells (R140, R145) -/

section
variable {m : Mod} {i : Nat} {v : W32}

/-- A tail write is counted; what it does then is decided on the module after the count. -/
theorem Mod.dbTail_of_accepted (hon : (m.cnt 622 1).qOn i = true)
    (hsize : (v - ((m.cnt 622 1).queue i).head).toNat ≤ (m.cnt 622 1).qSize i)
    (hold : ((m.cnt 622 1).queue i).waiting ≤ (v - ((m.cnt 622 1).queue i).head).toNat) :
    m.dbTail i v = (((m.cnt 622 1).setQueue i { (m.cnt 622 1).queue i with tail := v }).each
      ((List.range (v - ((m.cnt 622 1).queue i).tail).toNat).map fun j =>
        (((m.cnt 622 1).queue i).tail + BitVec.ofNat 32 j).toNat) fun m n => m.registerRec i n).headArrive i := by
  simp only [Mod.dbTail, hon, Nat.not_lt.mpr hsize, Nat.not_lt.mpr hold, Bool.not_true, Bool.false_eq_true, decide_false,
    Bool.or_self, if_false]

/-- A tail beyond the queue's size, or behind the last one, halts the queue (R140). -/
theorem Mod.dbTail_of_bad (hon : (m.cnt 622 1).qOn i = true)
    (hbad : (m.cnt 622 1).qSize i < (v - ((m.cnt 622 1).queue i).head).toNat ∨
      (v - ((m.cnt 622 1).queue i).head).toNat < ((m.cnt 622 1).queue i).waiting) :
    m.dbTail i v = (m.cnt 622 1).halt i ST_BAD_DOORBELL := by
  have hor : ((decide ((m.cnt 622 1).qSize i < (v - ((m.cnt 622 1).queue i).head).toNat)) ||
      decide ((v - ((m.cnt 622 1).queue i).head).toNat < ((m.cnt 622 1).queue i).waiting)) = true := by simpa using hbad
  simp only [Mod.dbTail, hon, hor, Bool.not_true, Bool.false_eq_true, if_false, if_true]

/-- A tail of a queue that is not enabled is ignored and recorded (R140). -/
theorem Mod.dbTail_of_disabled (hoff : (m.cnt 622 1).qOn i = false) :
    m.dbTail i v = (m.cnt 622 1).refuseQueue ST_CTX_STATE Blk.Q i := by
  simp only [Mod.dbTail, hoff, Bool.not_false, if_true]

/-- What a doorbell takes as its value is the value itself. -/
theorem exec_dbTailWrite_of_open {s : State} {d : Door} (v : W32) (hd : s.mod.doorOpen d i = true) :
    exec (.dbTailWrite d v) s = .next (s.leave (s.mod.dbTail i v).settle) := by
  have hv : BitVec.ofNat 32 v.toNat = v := by simp
  exact State.onMod_doorbell_eq hd (by rw [hv])

variable {st : Status} (hh : (m.queue i).halted = some st) (hon : m.qOn i = true) (hop : (m.queue i).op = none)
include hh hon hop

/-- A retried record is fetched again and checked anew (R145). -/
theorem Mod.dbResume_retry :
    m.dbResume i true =
      (((m.setQueue i { m.queue i with halted := none, stalled := false }).setQueue i
        { (m.setQueue i { m.queue i with halted := none, stalled := false }).queue i with
          fetched := [], checked := false, blocked := none }).headArrive i) := by
  simp [Mod.dbResume, hh, hon, hop]

/-- A skipped record is passed (R145). -/
theorem Mod.dbResume_skip (hst : st ≠ ST_BAD_DOORBELL) (hw : (m.queue i).waiting ≠ 0) :
    m.dbResume i false = (m.setQueue i { m.queue i with halted := none, stalled := false }).headPass i := by
  simp [Mod.dbResume, hh, hon, hop, hst, hw]
end

/-- Settles O21. -/
theorem doorbellCommands : Obligations.DoorbellCommands := by
  refine ⟨?accepted, ?halted, fun s d i v hd hoff => ?ignored, fun s d i st hd hh hon hop => ⟨fun hst hw => ?skip, ?retry⟩⟩
  case accepted =>
    intro s d i v hd m hon hsize hold
    rw [exec_dbTailWrite_of_open v hd, Mod.dbTail_of_accepted hon hsize hold]
  case halted =>
    intro s d i v hd m hon hbad
    rw [exec_dbTailWrite_of_open v hd, Mod.dbTail_of_bad hon hbad]
  case ignored => rw [exec_dbTailWrite_of_open v hd, Mod.dbTail_of_disabled hoff]
  case skip => exact State.onMod_doorbell_eq hd (Mod.dbResume_skip hh hon hop hst hw)
  case retry => exact State.onMod_doorbell_eq hd (Mod.dbResume_retry hh hon hop)

/-! ### Flags (R147, R148, R162) -/

/-- A sum wraps exactly where it comes out below what was added. -/
theorem wraps_iff_add_lt (x v : W64) : 2 ^ 64 ≤ x.toNat + v.toNat ↔ x + v < v := by
  have hx := x.isLt
  have hv := v.isLt
  rw [BitVec.lt_def, BitVec.toNat_add]
  omega

/-- A doorbell page reaches the flags of its queue's context inside the context's range (R147). -/
theorem Mod.dbFlag_of_inside {m : Mod} {i : Nat} (h : m.flagIn (qCtx i) (m.queue i).flagSel.toNat = true) (add : Bool) (v : W64) :
    m.dbFlag i add v = if add then m.flagAdd (m.ctxFlag (qCtx i) (m.queue i).flagSel.toNat) v
      else m.flagSet (m.ctxFlag (qCtx i) (m.queue i).flagSel.toNat) v := by
  simp only [Mod.dbFlag, h, Bool.not_true, Bool.false_eq_true, if_false]

/-- Outside the context's range it records that it was refused (R147). -/
theorem Mod.dbFlag_of_outside {m : Mod} {i : Nat} (h : m.flagIn (qCtx i) (m.queue i).flagSel.toNat = false) (add : Bool) (v : W64) :
    m.dbFlag i add v = m.refuseQueue ST_BAD_FLAG Blk.FLG i := by
  simp only [Mod.dbFlag, h, Bool.not_false, if_true]

/-- Settles O22. -/
theorem flagWrites : Obligations.FlagWrites := by
  refine ⟨fun m f v => ⟨rfl, ?add⟩, fun s v => ⟨fun f ho => ⟨?pfSet, ?pfAdd⟩, fun d i hd => ⟨fun hin => ⟨?vfSet, ?vfAdd⟩, fun hout => ?out⟩⟩⟩
  case add => simp only [Mod.flagAdd, wraps_iff_add_lt]
  case pfSet => exact State.onMod_host_eq ho rfl
  case pfAdd => exact State.onMod_host_eq ho rfl
  case vfSet => exact State.onMod_doorbell_eq hd (Mod.dbFlag_of_inside hin false v)
  case vfAdd => exact State.onMod_doorbell_eq hd (Mod.dbFlag_of_inside hin true v)
  case out => exact State.onMod_doorbell_eq hd (Mod.dbFlag_of_outside hout false v)

/-- Only the contexts differ, and of each context only its interludes. -/
def InterludesOnly (m k : Mod) : Prop :=
  ∃ cs, k = { m with ctxs := cs } ∧ ∀ c, k.ctx c = { m.ctx c with iludes := (k.ctx c).iludes }

theorem InterludesOnly.refl (m : Mod) : InterludesOnly m m := ⟨m.ctxs, rfl, fun _ => rfl⟩

theorem InterludesOnly.trans {a b c : Mod} (h : InterludesOnly a b) (g : InterludesOnly b c) : InterludesOnly a c := by
  obtain ⟨cs, rfl, hc⟩ := h
  obtain ⟨cs', rfl, hc'⟩ := g
  exact ⟨cs', rfl, fun x => (hc' x).trans (by rw [hc x])⟩

/-- Changing the interludes of a context changes nothing else. -/
theorem interludesOnly_setCtx (m : Mod) (c : Nat) (l : List Interlude) :
    InterludesOnly m (m.setCtx c { m.ctx c with iludes := l }) := by
  refine ⟨_, rfl, fun x => ?_⟩
  by_cases hx : x = c
  · subst x
    simp only [Mod.ctx_setCtx]
  · have hne : (m.setCtx c { m.ctx c with iludes := l }).ctx x = m.ctx x := Tab.get_set_ne m.ctxs hx _
    rw [hne]

/-- A flag that reaches its target ends interludes and does nothing else (R162). -/
theorem interludesOnly_interludeEnd (m : Mod) (f : Nat) : InterludesOnly m (m.interludeEnd f) := by
  unfold Mod.interludeEnd
  refine List.foldlRecOn (motive := InterludesOnly m) m.ctxs _ (.refl m) fun k hk e _ => ?_
  split
  · exact hk.trans (interludesOnly_setCtx k e.1 _)
  · exact hk

/-- Settles O23: with nothing waiting a flag write leaves the write itself and the interludes that it ends. -/
theorem flagWriteFrame : Obligations.FlagWriteFrame := by
  intro s t f v ho hq ht
  have hexec : exec (.flgValWrite f v) s = .next (s.leave (s.mod.flagSet f v)) := by
    have h : exec (.flgValWrite f v) s = .next (s.leave (s.mod.flagSet f v).settle) := State.onMod_host_eq ho rfl
    rwa [settleOfQuiet _ hq] at h
  obtain rfl : s.leave (s.mod.flagSet f v) = t := by simpa [hexec] using ht
  obtain ⟨cs, hcs, hctx⟩ := interludesOnly_interludeEnd
    { s.mod with flags := Tab.set 0 s.mod.flags f v, flagPois := Tab.set false s.mod.flagPois f false } f
  rw [State.leave_mod, State.leave_pending, Mod.flagSet]
  refine ⟨by rw [hcs], by rw [hcs], by rw [hcs], by rw [hcs], by rw [hcs], by rw [hcs], by rw [hcs], by rw [hcs], by rw [hcs],
    by rw [hcs], rfl, hctx, fun g => ?_⟩
  rw [hcs]
  by_cases hg : g = f.val
  · subst g
    simp [Mod.flag, Mod.flagBad]
  · simp [Mod.flag, Mod.flagBad, hg, Tab.get_set_ne _ hg]

/-! ### Contexts (R131, R382-R384) -/

/-- An enable that fails a check reports its status and does nothing else (R131). -/
theorem Mod.ctxEnable_of_failed {m : Mod} {c : Nat} (hdis : m.ctxState c = 0) (hbad : m.ctxCheck c ≠ ST_OK) :
    m.ctxEnable c = m.set F.CTX_STAT_last_status c (m.ctxCheck c) := by
  simp only [Mod.ctxEnable, hdis, Mod.ctxEnableNow, if_pos hbad]

/-- Settles O24. -/
theorem contextEnables : Obligations.ContextEnables := by
  intro s c ho hdis
  refine ⟨fun hok => ?passes, fun hbad => ?fails⟩
  case passes => exact State.onMod_host_eq ho (Mod.ctxEnable_of_ok hdis hok)
  case fails => exact State.onMod_host_eq ho (Mod.ctxEnable_of_failed hdis hbad)

/-- Settles O25: a teardown of an active context, and the two ends of a draining one. -/
theorem contextTeardown : Obligations.ContextTeardown := by
  intro s c
  refine ⟨fun ho hact => ?drains, fun hw hdrain => ?quiesced, fun silent hw hdrain => ?timeout⟩
  case drains => exact State.onMod_host_eq ho (by simp only [Mod.ctxTeardown, hact] <;> rfl)
  case quiesced => exact State.onMod_engine_eq hw (if_pos hdrain)
  case timeout => exact State.onMod_engine_eq hw (if_pos hdrain)

/-! ### Regions, queues and descriptors (R135, R146, R157) -/

section
variable {m : Mod} {c n : Nat}

/-- A valid staged region is stored (R135). -/
theorem Mod.regionWrite_of_ok (h : m.regionOk c m.stagedRegion = true) :
    m.regionWrite c n =
      ({ m with regions := Tab.set 0 m.regions (1024 * c + n) m.stagedRegion }).set F.CTX_RGN_STAT_status 0 ST_OK := by
  simp only [Mod.regionWrite, h, if_true, Mod.regionEnd]

/-- An invalid one is refused (R135). -/
theorem Mod.regionWrite_of_bad (h : m.regionOk c m.stagedRegion = false) :
    m.regionWrite c n = (m.set F.CTX_RGN_STAT_status 0 ST_BAD_REGION).set F.CTX_STAT_last_status c ST_BAD_REGION := by
  simp only [Mod.regionWrite, h, Bool.false_eq_true, if_false, Mod.regionEnd]
  rfl

/-- A queue that is neither enabled nor busy is enabled by a configuration that passes its checks (R146). -/
theorem Mod.queueEnable_of_ok {i v : Nat} (hoff : m.qOn i = false) (hbusy : m.qBusy i = false) (hok : m.queueOk i v = true) :
    m.queueEnable i v =
      (let k := (m.setRegAt (R.Q_CFG.base + 64 * i) 0 (v &&& R.Q_CFG.rw)).dropSigs (·.queue != i)
       k.setQueue i { flagSel := (k.queue i).flagSel, status := (k.queue i).status }) := by
  simp only [Mod.queueEnable, hoff, hbusy, Mod.queueEnableNow, hok, Bool.not_true, Bool.false_eq_true, if_false]

/-- A disable of an enabled queue drops what was fetched ahead (R146). -/
theorem Mod.queueDisable_of_on {i : Nat} (hpend : (m.get F.FLT_PEND_Q_queue (i / 64)).testBit (i % 64) = false)
    (hon : m.qOn i = true) :
    m.queueDisable i = (m.set F.Q_CFG_enable i 0).setQueue i
      { m.queue i with fetched := [], checked := false, blocked := none, stalled := false, halted := none } := by
  simp only [Mod.queueDisable, hpend, hon, Bool.false_eq_true, if_false, if_true]
end

/-- Settles O27. -/
theorem tableCommands : Obligations.TableCommands := by
  refine ⟨fun s c n ho => ⟨fun hok => ?written, fun hbad => ?refused, ?read⟩, fun s => ⟨fun q cfg ho hoff hbusy hok => ?enabled,
    fun q ho hpend hon => ?disabled, fun e ho he => ?stored⟩⟩
  case written => exact State.onMod_host_eq ho (Mod.regionWrite_of_ok hok)
  case refused => exact State.onMod_host_eq ho (Mod.regionWrite_of_bad hbad)
  case read => exact State.onMod_host_eq ho rfl
  case enabled => exact State.onMod_host_eq ho (Mod.queueEnable_of_ok hoff hbusy hok)
  case disabled => exact State.onMod_host_eq ho (Mod.queueDisable_of_on hpend hon)
  case stored => exact State.onMod_host_eq ho (if_neg (Nat.not_le.mpr he))

/-! ### Switches and budgets (R159, R162) -/

/-- At an operation boundary with nothing running the next context is taken up (R159). -/
theorem Mod.contextSwitch_of_next {m : Mod} {p c : Nat} (hup : m.partUp p = true) (hready : m.partReady p = true)
    (hidle : m.runsOn (2 ^ p) (fun _ => true) = false) (hnext : m.nextContext p = some c) :
    m.contextSwitch p = m.activate p c := by
  simp only [Mod.contextSwitch, hup, hready, hidle, hnext, Bool.not_true, Bool.or_self, Bool.false_eq_true, if_false]

/-- Settles O28. -/
theorem sliceEvents : Obligations.SliceEvents := by
  intro s hw
  refine ⟨fun p c hup hready hidle hnext => ?switch, fun e il hnext => ?budget, fun e il hone hlive => ?only⟩
  case switch => exact State.onMod_engine_eq hw (Mod.contextSwitch_of_next hup hready hidle hnext)
  case budget => exact State.onMod_engine_eq hw (by simp only [Mod.ilExpire, hnext, Mod.modIl])
  case only => simp [Mod.ilNext, hone, hlive]

end Sys2Proof.Machine
end

section
/-! Module memory from outside (chapter 7): BAR4, host completions, memory sides, scrubs, stack temperatures and stack faults. -/

namespace Sys2Proof.Machine

/-! ### BAR4 (R202, R219-R222, R230, R231, R430) -/

theorem Mod.powered_of_bar4Here {m : Mod} {off n : Nat} (h : m.bar4Here off n = true) : m.powered = true := by
  simp only [Mod.bar4Here, Bool.and_eq_true] at h
  exact h.1.1

section
variable {m : Mod} {off : Nat}

/-- A read inside the window answers what each byte shows, and draws its free bytes at once (R220, R230). -/
theorem Mod.bar4Read_of_here {n : Nat} {errs : List MemErr} (hh : m.bar4Here off n = true) (hr : m.inRecovery = false) :
    m.bar4Read off n errs =
      (let met := m.meetErrors none 0 errs
       let pa := met.bar4Addr off
       let k := (met.bar4Down ((List.range n).map (pa + ·))).reach false .rd pa n
       let bad := ((List.range n).map (pa + ·)).any fun a => k.bar4Up (k.stackOf a) && k.poisoned a
       ((({ k with freeN := k.freeN + (if bad then n else 0) }).cnt 618 n).cnt 617 n).emit
         (.completion ((List.range n).map fun j => k.bar4Byte j (pa + j)) bad)) := by
  simp only [Mod.bar4Read, hh, hr, Bool.not_true, Bool.false_eq_true, if_false]

/-- The bytes of a write with their enables, from address `base` on. -/
def bytesFrom (base : Nat) (l : List (Option Byte)) : List (Nat × Byte) :=
  ((List.range l.length).zip l).filterMap fun e => e.2.map fun b => (base + e.1, b)

/-- A write inside the window stores the bytes enabled whose stacks are in service (R202, R230). -/
theorem Mod.bar4Write_of_here {l : List (Option Byte)} (hh : m.bar4Here off l.length = true) (hr : m.inRecovery = false) :
    m.bar4Write off l =
      (let ws := bytesFrom (m.bar4Addr off) l
       let k := m.bar4Down (ws.map (·.1))
       ((k.cnt 619 ws.length).cnt 616 ws.length).wrOuts (fun _ => false) (ws.filter fun w => k.bar4Up (k.stackOf w.1)) []) := by
  simp only [Mod.bar4Write, hh, hr, Bool.not_true, Bool.false_eq_true, if_false, bytesFrom]

/-- An atomic on a good line answers the value before and leaves what its kind makes of it (R231). -/
theorem Mod.bar4Atomic_of_here {kind : Nat} {wide : Bool} {a b : Nat} (hh : m.bar4Here off (if wide then 8 else 4) = true)
    (hal : off % (if wide then 8 else 4) = 0) (hk : kind ≤ 2) (hr : m.inRecovery = false)
    (hup : m.bar4Up (m.stackOf (m.bar4Addr off)) = true) (hgood : m.poisonedIn (m.bar4Addr off / 128 * 128) 128 = false) :
    m.bar4Atomic kind wide off a b =
      (let n := if wide then 8 else 4
       let pa := m.bar4Addr off
       let old := m.rdNat pa n
       let k := (m.wrList (atAddr pa (leBytes n (atomicOp kind n old a b)))).atomic false pa n
       ((((k.cnt 619 n).cnt 618 n).cnt 617 n).emit (.completion (leBytes n old) false))) := by
  simp only [Mod.bar4Atomic, hh, hal, Nat.not_lt.mpr hk, hr, hup, hgood, Bool.not_true, Bool.false_eq_true, if_false, ne_eq,
    not_true_eq_false, decide_false, Bool.or_self]
end

/-- Settles O30. -/
theorem bar4Commands : Obligations.Bar4Commands := by
  intro s
  refine ⟨?read, ?write, ?atomic, fun k hlo hhi hp hl hr => ?resize⟩
  case read =>
    intro off len errs met pa pas m bad r hp hh hr
    refine State.onMod_always_eq hp ((Mod.bar4Read_of_here hh hr).trans ?_)
    simp only [Mod.bar4Byte, Bool.not_eq_true']
    rfl
  case write =>
    intro off l hh hr ws m
    exact State.onMod_always_eq (Mod.powered_of_bar4Here hh) (Mod.bar4Write_of_here hh hr)
  case atomic =>
    intro kind wide off a b n pa hh hal hk hr hup hgood old m
    exact State.onMod_always_eq (Mod.powered_of_bar4Here hh) (Mod.bar4Atomic_of_here hh hal hk hr hup hgood)
  case resize => exact State.onMod_always_eq hp (if_pos (by simp [hlo, hhi, hp, hl, hr]))

/-! ### What a BAR4 write leaves as it was (R203, R205, R398) -/

/-- The zone map alone says which stack holds an address. -/
theorem Mod.stackOf_congr {m k : Mod} (h : m.zones = k.zones) (pa : Nat) : m.stackOf pa = k.stackOf pa := by
  simp only [Mod.stackOf, Mod.zoneKind, Mod.zonePlace, h]

/-- A run of consecutive addresses is made of addresses of the list. -/
theorem mem_of_mem_runsOf {l : List Nat} {x : Nat × Nat} (h : x ∈ runsOf l) {j : Nat} (hj : j < x.2) : x.1 + j ∈ l := by
  induction l generalizing x j with
  | nil => exact absurd h List.not_mem_nil
  | cons a t ih =>
    unfold runsOf at h
    split at h
    · rename_i b n r hr
      have hb {k : Nat} (hk : k < n) : b + k ∈ t := ih (x := (b, n)) (by rw [hr]; exact List.mem_cons_self ..) hk
      have hrest (hx : x ∈ r) : x.1 + j ∈ t := ih (by rw [hr]; exact List.mem_cons_of_mem _ hx) hj
      split at h
      · rename_i hab
        rcases List.mem_cons.mp h with rfl | hx
        · cases j with
          | zero => exact List.mem_cons_self ..
          | succ j =>
            have := hb (k := j) (by simpa using hj)
            exact List.mem_cons_of_mem _ (by simpa [← hab, Nat.add_assoc, Nat.add_comm 1 j] using this)
        · exact List.mem_cons_of_mem _ (hrest hx)
      · rcases List.mem_cons.mp h with rfl | hx
        · have h0 : j = 0 := by simpa using hj
          subst h0
          exact List.mem_cons_self ..
        · rcases List.mem_cons.mp hx with rfl | hx
          · exact List.mem_cons_of_mem _ (hb hj)
          · exact List.mem_cons_of_mem _ (hrest hx)
    · obtain rfl : x = (a, 1) := by simpa using h
      have h0 : j = 0 := by simpa using hj
      subst h0
      exact List.mem_cons_self ..

/-- The accesses of a store of whole bytes change the slices and the registers of the slices of its bytes, and nothing else. -/
theorem sliceOnly_wrOuts {P : Nat → Prop} (m : Mod) (fine : Nat → Bool) (ws : List (Nat × Byte))
    (h : ∀ w ∈ ws, HoldsSlice P (m.stackOf (256 * (w.1 / 256)))) : SliceOnly P (m.wrList ws) (m.wrOuts fine ws []) := by
  have hstore : (m.wrList ws).wrHalves [] = m.wrList ws := rfl
  simp only [Mod.wrOuts, hstore, List.map_nil, List.append_nil]
  refine List.foldlRecOn (motive := SliceOnly P (m.wrList ws)) _ _ (.refl _) fun k hk x hx => hk.trans ?_
  refine sliceOnly_reach k _ _ _ _ fun j hj => ?_
  obtain ⟨w, hw, hwx⟩ := List.mem_map.mp (mem_of_mem_runsOf hx hj)
  rw [Mod.stackOf_congr (hk.zones.trans (m.wrList_zones ws)), ← hwx]
  exact h w hw

/-- A store of whole bytes with its accesses leaves every other byte, every register but those of its slices, and every table but
memory, poison and the slices. -/
theorem Mod.wrOuts_frame (m : Mod) (fine : Nat → Bool) (ws : List (Nat × Byte)) :
    (∀ x, (∀ w ∈ ws, m.key w.1 ≠ x) → (m.wrOuts fine ws []).byteAt x = m.byteAt x) ∧
    (∀ reg rst, (∀ w ∈ ws, sliceReg (m.stackOf (256 * (w.1 / 256))) reg = false) →
      (m.wrOuts fine ws []).regAt reg rst = m.regAt reg rst) ∧
    ∃ r s t p, m.wrOuts fine ws [] = { m with regs := r, slices := s, mem := t, poison := p } := by
  obtain ⟨r, s, hk, hregs⟩ := sliceOnly_wrOuts
    (P := fun reg => ∃ w ∈ ws, sliceReg (m.stackOf (256 * (w.1 / 256))) reg = true) m fine ws fun w hw _ hreg => ⟨w, hw, hreg⟩
  obtain ⟨p, hstore⟩ := m.wrList_eq ws
  refine ⟨fun x hx => ?_, fun reg rst hreg => ?_, r, s, storeAll m m.mem ws, p, by rw [hk, hstore]⟩
  · rw [hk, hstore]
    exact get_storeAll_ne m x ws m.mem hx
  · have hlist : (m.wrList ws).regs = m.regs := by rw [hstore]
    rw [hregs reg rst (by rintro ⟨w, hw, hs⟩; simp [hreg w hw] at hs), Mod.regAt, hlist, Mod.regAt]

/-- A counter word changes no field but the registers. -/
theorem Mod.cnt_eq (m : Mod) (i n : Nat) : ∃ r, m.cnt i n = { m with regs := r } := ⟨_, rfl⟩

@[simp] theorem Mod.cnt_zones (m : Mod) (i n : Nat) : (m.cnt i n).zones = m.zones := by rw [Mod.cnt, Mod.count_eq, Mod.set_zones]
@[simp] theorem Mod.cnt_mem (m : Mod) (i n : Nat) : (m.cnt i n).mem = m.mem := by rw [Mod.cnt, Mod.count_eq, Mod.set_mem]
@[simp] theorem Mod.key_cnt (m : Mod) (i n pa : Nat) : (m.cnt i n).key pa = m.key pa := Mod.key_congr (m.cnt_zones i n) pa
@[simp] theorem Mod.stackOf_cnt (m : Mod) (i n pa : Nat) : (m.cnt i n).stackOf pa = m.stackOf pa :=
  Mod.stackOf_congr (m.cnt_zones i n) pa
@[simp] theorem Mod.byteAt_cnt (m : Mod) (i n x : Nat) : (m.cnt i n).byteAt x = m.byteAt x := by
  rw [Mod.byteAt, Mod.cnt_mem, Mod.byteAt]

theorem mem_bytesFrom {base : Nat} {l : List (Option Byte)} {w : Nat × Byte} (h : w ∈ bytesFrom base l) :
    ∃ j, j < l.length ∧ w.1 = base + j := by
  simp only [bytesFrom, List.mem_filterMap] at h
  obtain ⟨e, he, hw⟩ := h
  obtain ⟨b, -, rfl⟩ := Option.map_eq_some_iff.mp hw
  exact ⟨e.1, List.mem_range.mp (List.of_mem_zip he).1, rfl⟩

/-- Settles O31: with every stack in service and nothing waiting, the write is its two counters, its store and its accesses. -/
theorem bar4WriteFrame : Obligations.Bar4WriteFrame := by
  intro s t off l hh hr ws m m' hm hq ht
  have hexec : exec (.bar4Write off l) s = .next (s.leave m') := by
    have h : exec (.bar4Write off l) s = .next (s.leave m'.settle) :=
      State.onMod_always_eq (Mod.powered_of_bar4Here hh) (Mod.bar4Write_of_here hh hr)
    rwa [settleOfQuiet _ hq] at h
  obtain rfl : s.leave m' = t := by simpa [hexec] using ht
  have hm' : m' = ((s.mod.cnt 619 ws.length).cnt 616 ws.length).wrOuts (fun _ => false)
      (ws.filter fun w => s.mod.bar4Up (s.mod.stackOf w.1)) [] := by simp only [m', hm]
  obtain ⟨hbytes, hregs, r, sl, mem, p, hrest⟩ := Mod.wrOuts_frame ((s.mod.cnt 619 ws.length).cnt 616 ws.length) (fun _ => false)
    (ws.filter fun w => s.mod.bar4Up (s.mod.stackOf w.1))
  rw [State.leave_mod, State.leave_pending, hm']
  refine ⟨fun x hx => ?_, fun reg rst hreg => ?_, ?_⟩
  · refine (hbytes x fun w hw => ?_).trans (by simp)
    obtain ⟨j, hj, hwj⟩ := mem_bytesFrom (List.mem_of_mem_filter hw)
    simp only [hwj, Mod.key_cnt]
    exact hx j hj
  · exact hregs reg rst fun w hw => by simpa using hreg w (List.mem_of_mem_filter hw)
  · obtain ⟨r1, h1⟩ := s.mod.cnt_eq 619 ws.length
    obtain ⟨r2, h2⟩ := (s.mod.cnt 619 ws.length).cnt_eq 616 ws.length
    rw [hrest, h2, h1]
    exact ⟨rfl, rfl, rfl, rfl, rfl, rfl, rfl, rfl⟩

/-! ### Completions, memory sides, scrubs and stacks (R203, R219, R222-R229) -/

section
variable {m : Mod} {p : Nat}

/-- A scrub of a stack that has its turn reads the next word and moves on (R223). -/
theorem Mod.patrolScrub_of_on {n : Nat} {late : Bool} (he : m.on F.MEM_SCRUB_CFG_enable = true) (hup : m.partUp p = true)
    (hself : (m.part p).selfRefresh = false) (hgate : m.on F.MEM_STACK_STAT_gated p = false) :
    m.patrolScrub p n late =
      (let w := (m.part p).scrubPos
       let next := (w + 1) % 2 ^ 33
       let k := ((m.setPart p { m.part p with scrubPos := next }).cnt (128 + 8 * p + 2) 8).set F.MEM_SCRUB_STAT_position p
         (next * 8 / 4096)
       let done := k.count F.MEM_SCRUB_STAT_passes p 1
       (if next = 0 then (if late then done.scrubLate p else done) else k).wordError 1 (p * 2 ^ 33 + w) n) := by
  simp only [Mod.patrolScrub, he, hup, hself, hgate, Bool.not_true, Bool.or_self, Bool.false_eq_true, if_false]

/-- A sample below the trip level of a stack that is in service, and stays so, sets its level (R224-R226). -/
theorem Mod.stackTemp_of_level {t : Nat} (ht : t < 110)
    (hself : (((m.set F.MEM_STACK_STAT_temp_c p t).hottest).part p).selfRefresh = false)
    (hnew : stackLevelNext ((m.set F.MEM_STACK_STAT_temp_c p t).hottest.get F.MEM_STACK_STAT_level p) t ≠ 4) :
    m.stackTemp p t =
      (let k := (m.set F.MEM_STACK_STAT_temp_c p t).hottest
       let cur := k.get F.MEM_STACK_STAT_level p
       let new := stackLevelNext cur t
       if cur < 3 && 3 ≤ new then
         (k.stackLevel p new).log { st := ST_STACK_HOT, cls := .event, block := Blk.MEM, part := p }
       else k.stackLevel p new) := by
  simp only [Mod.stackTemp, Nat.not_le.mpr ht, hself, hnew, Bool.false_eq_true, if_false, decide_false, Bool.false_and]
end

/-- Settles O32. -/
theorem memoryEvents : Obligations.MemoryEvents := by
  refine ⟨fun s tag hw _ => ⟨fun data poisoned => ?completion, ?failed⟩,
    fun s p => ⟨fun hp hms => ?wake, ?patrol, fun errs late hw hup hgate => ?slices⟩,
    fun s p hp => ⟨?temperature, fun hself hgood => ?cooled, fun hup hfault => ⟨?parity, ?phy⟩⟩⟩
  case completion => exact State.onMod_engine_eq hw rfl
  case failed => exact State.onMod_engine_eq hw rfl
  case wake => exact State.onMod_always_eq hp (if_pos hms)
  case patrol =>
    intro n late hw he hup hself hgate
    exact State.onMod_engine_eq hw (Mod.patrolScrub_of_on he hup hself hgate)
  case slices => exact State.onMod_engine_eq hw (if_neg (by simp [hup, hgate]))
  case temperature =>
    intro t ht m hself cur new hnew
    exact State.onMod_always_eq hp (Mod.stackTemp_of_level ht hself hnew)
  case cooled => exact State.onMod_always_eq hp (if_pos (by simp [hself, hgood]))
  case parity => exact State.onMod_always_eq hp (if_pos (by simp [hup, hfault]))
  case phy => exact State.onMod_always_eq hp (if_pos (by simp [hup, hfault]))

end Sys2Proof.Machine
end

section
/-! Ports and flits (chapter 8): what each command leaves where its block takes it. -/

namespace Sys2Proof.Machine

theorem Mod.linkOpen_of_works {m : Mod} (hw : m.works = true) (hj : m.boot.jtag = false) : m.linkOpen = true := by
  rw [Mod.linkOpen, Mod.powered_of_works hw, hj]; rfl

/-! ### Port commands (R238, R241, R265) -/

theorem Mod.portEnable_of_disabled {m : Mod} {n : Nat} (hoff : m.on F.LNK_CFG_enable n = false)
    (haxis : (m.set F.LNK_CFG_enable n 1).axisLive n = true) (hwell : (m.set F.LNK_CFG_enable n 1).failed = false) :
    m.portEnable n = (m.set F.LNK_CFG_enable n 1).portTrain n := by
  simp only [Mod.portEnable, hoff, haxis, hwell, Bool.false_eq_true, if_false, Bool.not_false, Bool.and_self, if_true]

theorem Mod.portRetrain_of_live {m : Mod} {n : Nat} (hon : m.on F.LNK_CFG_enable n = true) (haxis : m.axisLive n = true)
    (hwell : m.failed = false) :
    m.portRetrain n = (((m.portClear n).portTrain n).portAvail n).discCheck.notice n := by
  simp only [Mod.portRetrain, hon, haxis, hwell, Bool.not_true, Bool.or_self, Bool.false_eq_true, if_false]

/-- Settles O33. -/
theorem portCommands : Obligations.PortCommands := by
  intro s n ho
  refine ⟨fun hoff haxis hwell => ?enable, fun hstate => ?disable, fun hon haxis hwell => ?retrain, fun huse => ?fence,
    fun m hm hstate => ?unfence⟩
  case enable => exact State.onMod_host_eq ho (Mod.portEnable_of_disabled hoff haxis hwell)
  case disable => exact State.onMod_host_eq ho (if_neg hstate)
  case retrain => exact State.onMod_host_eq ho (Mod.portRetrain_of_live hon haxis hwell)
  case fence => exact State.onMod_host_eq ho (if_pos huse)
  case unfence =>
    subst hm
    exact State.onMod_host_eq ho (if_pos hstate)

/-! ### Training (Table 8.3, R239-R241, R264) -/

/-- A training without a good lane group takes the port down (R240). -/
theorem Mod.trained_of_no_group {m : Mod} {n failed : Nat} (id : Option Identity) (htrain : m.get F.LNK_STAT_state n = 1)
    (hpeer : (m.port n).peerMode.isSome = true)
    (hnone : pickGroup failed (minLanes ((m.set F.LNK_STAT_failed_mask n failed).get F.LNK_CFG_min_width n)) 8 = none) :
    m.trained n failed id = (m.set F.LNK_STAT_failed_mask n failed).portDown n := by
  have hsome : (m.port n).peerMode.isNone = false := by rw [Option.isNone_eq_false_iff, hpeer]
  simp [Mod.trained, htrain, hsome, hnone]

/-- What the end of a training means for discovery turns on whether the port came into service (R254). -/
theorem Mod.trainingDone_eq (m : Mod) (n failed : Nat) (id : Option Identity) :
    m.trainingDone n failed id =
      let m := m.trained n failed id
      let m1 := { m with fab := { m.fab with started := true } }
      let m2 := if m1.fab.haveAddr then m1.tellPeer n else if m1.get F.RTE_SELF_disc_state = 1 then m1.floodKey else m1
      if m.usable n = true then
        match id.bind (·.phys) with
        | some a => m2.told n (m2.implied a.toNat (if n % 2 = 0 then n + 1 else n - 1))
        | none => m2
      else m := by
  by_cases hu : (m.trained n failed id).usable n = true
  · exact (if_neg (by rw [hu]; decide)).trans (if_pos hu).symm
  · exact (if_pos (by rw [Bool.eq_false_iff.2 hu]; rfl)).trans (if_neg hu).symm

/-- A lane fails at a port in service: how many codewords the FEC reported is the next free value (log entry 15). -/
theorem Mod.laneFail_of_carries {m : Mod} {n : Nat} (lanes : Nat) (hc : m.carries0 n = true) :
    m.laneFail n lanes
      = (({ m with freeN := m.freeN + 1 } : Mod).bump F.LNK_ERR_fec_uncorr n (Config.freeNat m.freeN)).narrow n lanes := by
  simp only [Mod.laneFail, hc, Bool.not_true, Bool.false_eq_true, if_false]
  rfl

theorem Mod.narrow_of_spare {m : Mod} {n lanes : Nat} (hspare : m.get F.LNK_STAT_lane_mask n &&& lanes = 0) :
    m.narrow n lanes = m.set F.LNK_STAT_failed_mask n (m.get F.LNK_STAT_failed_mask n ||| lanes) := if_pos hspare

theorem Mod.autoRetrain_of_down {m : Mod} {n : Nat} (hdown : m.get F.LNK_STAT_state n = 5)
    (hauto : m.on F.LNK_CFG_auto_retrain n = true) (hon : m.on F.LNK_CFG_enable n = true) (hwell : m.failed = false)
    (hms : m.get F.PWR_MS_CTL_state ≠ 3) : m.autoRetrain n = m.portTrain n := by
  simp only [Mod.autoRetrain, hdown, hauto, hon, hwell, bne_iff_ne.2 hms, decide_true, Bool.not_false, Bool.and_self, if_true]

/-- Settles O34. -/
theorem trainingEvents : Obligations.TrainingEvents := by
  intro s n hl
  refine ⟨fun mode htrain => ?detected, fun failed id htrain hpeer => ⟨fun hnone => ?noGroup, ?complete⟩,
    fun lanes hc => ⟨fun hspare => ?spare, fun g huse hpick => ?narrower⟩, fun hdown hauto hon hwell hms => ?auto⟩
  case detected => exact State.onMod_link_eq hl (if_neg (not_not_intro htrain))
  case noGroup => exact Mod.trained_of_no_group id htrain hpeer hnone
  case complete =>
    intro m m1 m2
    exact State.onMod_link_eq hl (Mod.trainingDone_eq _ _ _ _)
  case spare => exact State.onMod_link_eq hl ((Mod.laneFail_of_carries _ hc).trans (Mod.narrow_of_spare hspare))
  case narrower =>
    refine State.onMod_link_eq hl ((Mod.laneFail_of_carries _ hc).trans ?_)
    rw [Mod.narrow, if_neg huse, hpick]
  case auto => exact State.onMod_link_eq hl (Mod.autoRetrain_of_down hdown hauto hon hwell hms)

end Sys2Proof.Machine
end

section
/-! Flits, packets, discovery and routes (chapter 8). -/

namespace Sys2Proof.Machine

/-! ### Flits (R243-R247, R263) -/

/-- A good flit of the expected number is accepted (R244). -/
theorem Mod.dataFlit_of_expected {m : Mod} {n : Nat} {l : List Byte} (hc : m.carries0 n = true) (hrun : m.stopped = false)
    (hgood : Ft.good l = true) (htype : Ft.ftype l = 0) (hvc : Ft.vc l < 6)
    (hseq : Ft.seq l = ((m.takeReturns n l).port n).rxNext) :
    m.dataFlit n l =
      let p := (m.takeReturns n l).port n
      let k := vcKey (Ft.vc l) (Ft.cls l)
      ((m.takeReturns n l).cnt (288 + 32 * n + 4 * Ft.vc l + 1) 1).setPort n
        { p with rxNext := (p.rxNext + 1) % 65536, nakWait := false, rxHeld := Tab.set 0 p.rxHeld k (Tab.get 0 p.rxHeld k + 1) } := by
  have hahead : (Ft.seq l + 65536 - ((m.takeReturns n l).port n).rxNext) % 65536 = 0 := by
    rw [hseq, Nat.add_sub_cancel_left]
  simp only [Mod.dataFlit, hc, hrun, hgood, htype, Bool.not_true, Bool.false_eq_true, if_false, ne_eq, not_true_eq_false]
  rw [if_pos hahead, if_pos hvc]

/-- A data flit with a wrong CRC is counted and answered by a NAK (R244, R245). -/
theorem Mod.dataFlit_of_bad_crc {m : Mod} {n : Nat} {l : List Byte} (hc : m.carries0 n = true) (hrun : m.stopped = false)
    (hbad : Ft.good l = false) :
    m.dataFlit n l = ((m.crcError n).setPort n { (m.crcError n).port n with nakWait := true }).sendNak n := by
  have hport : (m.crcError n).port n = m.port n := by rw [Mod.port, Mod.crcError, Mod.bump_eq, Mod.set_ports, Mod.port]
  simp only [Mod.dataFlit, hc, hrun, hbad, hport, Bool.not_true, Bool.not_false, Bool.false_eq_true, if_false, if_true]

/-- A NAK that is not the eighth in a row of its flit replays from that flit (R244, R245). -/
theorem Mod.nakFlit_of_replay {m : Mod} {n : Nat} {l : List Byte} (lanes : Nat) (hc : m.carries0 n = true)
    (hgood : Ft.good l = true) (htype : Ft.ftype l = 3)
    (hcount : (if (m.port n).nakCount ≠ 0 && (m.port n).nakSeq = Ft.ack l then (m.port n).nakCount + 1 else 1) ≠ 8) :
    m.nakFlit n l lanes =
      let p := m.port n
      let a := Ft.ack l
      let count := if p.nakCount ≠ 0 && p.nakSeq = a then p.nakCount + 1 else 1
      let key := vcKey (Ft.crVc l) (Ft.crCls l)
      let p' := { p with
        nakSeq := a, nakCount := count % 8,
        replay := if p.replay.any (·.seq == a) then p.replay.dropWhile (·.seq != a)
          else if p.txSeq = a then [] else p.replay,
        credits := Tab.set 0 p.credits key (Min.min (Tab.get 0 p.credits key + Ft.crCnt l) (vcBuffer (Ft.crVc l))) }
      ((m.setPort n p').replayFrom n a).drain n := by
  simp only [Mod.nakFlit, hc, hgood, htype, Bool.not_true, Bool.false_eq_true, if_false, ne_eq, not_true_eq_false]
  exact if_neg hcount

theorem Mod.nakFlit_of_bad_crc {m : Mod} {n : Nat} {l : List Byte} (lanes : Nat) (hc : m.carries0 n = true)
    (hbad : Ft.good l = false) : m.nakFlit n l lanes = m.crcError n := by
  simp only [Mod.nakFlit, hc, hbad, Bool.not_true, Bool.not_false, Bool.false_eq_true, if_false, if_true]

theorem Mod.idleFlit_of_good {m : Mod} {n : Nat} {l : List Byte} (hc : m.carries0 n = true) (hgood : Ft.good l = true)
    (htype : Ft.ftype l = 1) : m.idleFlit n l = m.takeReturns n l := by
  simp only [Mod.idleFlit, hc, hgood, htype, Bool.not_true, Bool.false_eq_true, if_false, ne_eq, not_true_eq_false]

theorem Mod.idleFlit_of_bad_crc {m : Mod} {n : Nat} {l : List Byte} (hc : m.carries0 n = true) (hbad : Ft.good l = false) :
    m.idleFlit n l = m.crcError n := by
  simp only [Mod.idleFlit, hc, hbad, Bool.not_true, Bool.not_false, Bool.false_eq_true, if_false, if_true]

theorem Mod.keepaliveFlit_of_good {m : Mod} {n : Nat} {l : List Byte} (hc : m.carries0 n = true) (hgood : Ft.good l = true)
    (htype : Ft.ftype l = 2) (hprobe : Ft.probe l = false) : m.keepaliveFlit n l = m.takeReturns n l := by
  simp only [Mod.keepaliveFlit, hc, hgood, htype, hprobe, Bool.not_true, Bool.false_eq_true, if_false, ne_eq, not_true_eq_false]

theorem Mod.keepaliveFlit_of_bad_crc {m : Mod} {n : Nat} {l : List Byte} (hc : m.carries0 n = true) (hbad : Ft.good l = false) :
    m.keepaliveFlit n l = m.crcError n := by
  simp only [Mod.keepaliveFlit, hc, hbad, Bool.not_true, Bool.not_false, Bool.false_eq_true, if_false, if_true]

theorem Mod.keepaliveSend_sends {m : Mod} {n : Nat} (hc : m.carries0 n = true) (hspeaks : m.fab.silent.testBit (n / 4) = false) :
    m.keepaliveSend n =
      let p := m.port n
      let probe := m.on F.LNK_PROBE_CFG_enable && (p.keepalives + 1) % 2 ^ m.get F.LNK_PROBE_CFG_interval_log2 == 0
      let x := (m.setPort n { p with keepalives := p.keepalives + 1 }).flitHead n 2 p.acked
      x.2.emit (.ctlFlit n (mkFlit (x.1 + b2n probe * 2 ^ 52) (leBytes 8 x.2.time ++ leBytes 4 (x.2.phys + n * 2 ^ 24)))) := by
  simp only [Mod.keepaliveSend, hc, hspeaks, Bool.not_true, Bool.or_self, Bool.false_eq_true, if_false]

/-- Settles O35. -/
theorem flitsTaken : Obligations.FlitsTaken := by
  refine ⟨fun s n hw hj hc => ⟨fun l hgood htype hvc => ?data, fun l lanes hgood htype => ?nak, fun l hgood htype => ?idle,
    fun l hgood htype hprobe => ?keepalive, fun hspeaks => ?sends, ?timeout⟩, fun s n l hw hj hc hbad => ?badCrc⟩
  case data =>
    intro m hseq _ k p
    exact State.onMod_link_eq (Mod.linkOpen_of_works hw hj)
      (Mod.dataFlit_of_expected hc (Mod.stopped_of_works hw) hgood htype hvc hseq)
  case nak =>
    intro p a count key hcount p'
    exact State.onMod_engine_eq hw (Mod.nakFlit_of_replay _ hc hgood htype hcount)
  case idle => exact State.onMod_engine_eq hw (Mod.idleFlit_of_good hc hgood htype)
  case keepalive => exact State.onMod_link_eq (Mod.linkOpen_of_works hw hj) (Mod.keepaliveFlit_of_good hc hgood htype hprobe)
  case sends =>
    intro p probe m x
    exact State.onMod_link_eq (Mod.linkOpen_of_works hw hj) (Mod.keepaliveSend_sends hc hspeaks)
  case timeout => exact State.onMod_link_eq (Mod.linkOpen_of_works hw hj) (if_pos hc)
  case badCrc =>
    have hl := Mod.linkOpen_of_works hw hj
    refine ⟨?_, fun lanes => ?_, ?_, ?_⟩
    · exact State.onMod_link_eq hl (Mod.dataFlit_of_bad_crc hc (Mod.stopped_of_works hw) hbad)
    · exact State.onMod_engine_eq hw (Mod.nakFlit_of_bad_crc _ hc hbad)
    · exact State.onMod_engine_eq hw (Mod.idleFlit_of_bad_crc hc hbad)
    · exact State.onMod_link_eq hl (Mod.keepaliveFlit_of_bad_crc hc hbad)

/-! ### Packets (R250, R254-R256, R259-R267) -/

/-- Each of these commands lets in the packets of its own type. -/
theorem exec_packetKind {s : State} {n : Fin 8} {p : Packet} {e : Instr × Nat} (he : e ∈ packetKinds n p)
    (htype : p.hdr.ptype.toNat = e.2) (hw : s.mod.works = true) (hc : s.mod.carries0 n = true) :
    exec e.1 s = .next (s.leave (s.mod.arriveHere n p).settle) := by
  have harrive : s.mod.arriveKind n p [e.2] = s.mod.arriveHere n p := by
    simp [Mod.arriveKind, hc, htype]
  simp only [packetKinds, List.mem_cons, List.not_mem_nil, or_false] at he
  rcases he with rfl | rfl | rfl | rfl | rfl | rfl | rfl | rfl | rfl | rfl | rfl | rfl | rfl | rfl | rfl <;>
    exact State.onMod_engine_eq hw harrive

/-- A packet for this module of its epoch and generation is consumed. -/
theorem Mod.arriveHere_of_dst {m : Mod} {n : Nat} {p : Packet} (hone : flooded p = false)
    (hdst : p.hdr.dst.toNat = m.phys) (hep : m.epochOk p = true) (hgen : m.genOk p = true) :
    m.arriveHere n p = m.consume n p := by
  have hdeliver : m.deliver n p = m.consume n p := by
    simp only [Mod.deliver, hep, hgen, Bool.not_true, Bool.false_eq_true, if_false]
  rw [Mod.arriveHere, hone, hdst]
  cases p.payload <;> simp [hdeliver]

/-- A flood of anything but a root key is dropped where it has been seen, and passed on and consumed otherwise (R265). -/
theorem Mod.arriveHere_of_flood {m : Mod} {n : Nat} {p : Packet} (hfl : flooded p = true) (hpl : ∀ k i, p.payload ≠ .rootKey k i) :
    m.arriveHere n p =
      let x := m.seenPair p.hdr.src.toNat p.hdr.bseq.toNat
      if x.1 then x.2 else (x.2.floodOut p n).consume n p := by
  rw [Mod.arriveHere, if_pos hfl, Mod.floodIn]
  cases hp : p.payload <;> simp
  exact absurd hp (hpl _ _)

/-- A root key is kept and flooded on where it is lower than every one seen (R254). -/
theorem Mod.arriveHere_of_rootKey {m : Mod} {n : Nat} {p : Packet} {k : Byte} {i : BitVec 64} (hfl : flooded p = true)
    (htype : p.hdr.ptype = 0x01) (hpl : p.payload = .rootKey k i) : m.arriveHere n p = m.keyIn n p (k.toNat, i.toNat) := by
  rw [Mod.arriveHere, if_pos hfl, Mod.floodIn, hpl]
  exact if_pos htype

/-- An address assignment goes to whatever module the link leads to (R254). -/
theorem Mod.arriveHere_of_address {m : Mod} {n : Nat} {p : Packet} {a : BitVec 24} (hone : flooded p = false)
    (htype : p.hdr.ptype = 0x01) (hpl : p.payload = .address a) (hc : m.carries0 n = true) :
    m.arriveHere n p = m.told n a.toNat := by
  simp [Mod.arriveHere, Mod.consume, Mod.discovery, hone, htype, hpl, hc]

/-- A packet with hops left goes on along its route (R256). -/
theorem Mod.arrive_of_hop {m : Mod} {n vc o r : Nat} {cls wrap : Bool} {p : Packet}
    (hin : (if vc = 0 then m.carries0 n else m.usable n) = true) (hone : flooded p = false)
    (hhop : (m.releaseRx n vc cls (flitCount p)).hop p.hdr.route.toNat = some (o, r, wrap))
    (hout : (m.releaseRx n vc cls (flitCount p)).accepts o vc = true) :
    m.arrive n vc cls p = (m.releaseRx n vc cls (flitCount p)).enqueue o vc (wrap || (cls && o / 2 == n / 2))
      { p with hdr := { p.hdr with route := BitVec.ofNat 32 r } } := by
  simp [Mod.arrive, hin, hone, hhop, hout]

/-- Settles O36. -/
theorem packetsArrive : Obligations.PacketsArrive := by
  refine ⟨fun s n p hw hc => ⟨fun e he htype hone _ hdst hep hgen => ?taken, fun vc cls o r wrap hin hone => ?goesOn⟩,
    fun s n p e he htype hw hc hfl hpl => ?flood, fun s n p htype hw hc => ⟨fun a hpl hone => ?address,
    fun k i hpl hfl => ⟨fun hlow => ?lower, fun b hb hnot => ?higher⟩⟩⟩
  case taken => rw [exec_packetKind he htype hw hc, Mod.arriveHere_of_dst hone hdst hep hgen]
  case goesOn =>
    intro m hhop hout
    exact State.onMod_engine_eq hw (Mod.arrive_of_hop hin hone hhop hout)
  case flood => rw [exec_packetKind he htype hw hc, Mod.arriveHere_of_flood hfl hpl]
  case address =>
    have he : (Instr.discoveryReceive n p, 0x01) ∈ packetKinds n p := List.mem_cons_self
    rw [exec_packetKind he (by rw [htype]; rfl) hw hc, Mod.arriveHere_of_address hone htype hpl hc]
  case lower =>
    have he : (Instr.discoveryReceive n p, 0x01) ∈ packetKinds n p := List.mem_cons_self
    have hall : s.mod.fab.bestKey.all (keyLt (k.toNat, i.toNat)) = true := by
      cases hb : s.mod.fab.bestKey with
      | none => rfl
      | some b => exact hlow b hb
    rw [exec_packetKind he (by rw [htype]; rfl) hw hc, Mod.arriveHere_of_rootKey hfl htype hpl, Mod.keyIn, if_pos hall]
  case higher =>
    have he : (Instr.discoveryReceive n p, 0x01) ∈ packetKinds n p := List.mem_cons_self
    have hall : s.mod.fab.bestKey.all (keyLt (k.toNat, i.toNat)) = false := by rw [hb]; exact hnot
    rw [exec_packetKind he (by rw [htype]; rfl) hw hc, Mod.arriveHere_of_rootKey hfl htype hpl, Mod.keyIn, hall]
    rfl

/-! ### Discovery and routes (R254, R260, R272, R372) -/

theorem Mod.joinExpiry_of_alone {m : Mod} (haddr : m.fab.haveAddr = false) (hstate : m.get F.RTE_SELF_disc_state = 0)
    (halone : m.fab.started = false) : m.joinExpiry = m.takeRoot := by
  simp [Mod.joinExpiry, haddr, hstate, halone]

theorem Mod.joinExpiry_of_peers {m : Mod} (haddr : m.fab.haveAddr = false) (hstate : m.get F.RTE_SELF_disc_state = 0)
    (hpeers : m.fab.started = true) : m.joinExpiry = ((m.set F.RTE_SELF_disc_state 0 1).keySeen m.rootKey).floodKey := by
  simp [Mod.joinExpiry, haddr, hstate, hpeers]

theorem Mod.electionEnd_of_lowest {m : Mod} (haddr : m.fab.haveAddr = false) (hstate : m.get F.RTE_SELF_disc_state = 1)
    (hlow : m.fab.bestKey = some m.rootKey) : m.electionEnd = m.takeRoot := by
  simp [Mod.electionEnd, haddr, hstate, hlow]

/-- Settles O37. -/
theorem discoveryGoesOn : Obligations.DiscoveryGoesOn := by
  refine ⟨fun s hw haddr => ⟨fun hstate halone => ?alone, fun hstate hpeers => ?peers, fun hstate hlow => ?lowest⟩,
    fun s d hw => ?watchdog⟩
  case alone => exact State.onMod_engine_eq hw (Mod.joinExpiry_of_alone haddr hstate halone)
  case peers => exact State.onMod_engine_eq hw (Mod.joinExpiry_of_peers haddr hstate hpeers)
  case lowest => exact State.onMod_engine_eq hw (Mod.electionEnd_of_lowest haddr hstate hlow)
  case watchdog => exact State.onMod_engine_eq hw rfl

theorem Mod.routeCommit_of_ok {m : Mod} (cast : Bool) (hok : m.routesOk m.stagedRoutes.1 m.stagedRoutes.2 = true) :
    m.routeCommit cast =
      let e := (m.get F.RTE_EPOCH_epoch + 1) % 65536
      let k := (m.installRoutes m.stagedRoutes.1 m.stagedRoutes.2 e).set F.RTE_CMD_status 0 ST_OK
      if cast then k.flood 0x03 (.routes (BitVec.ofNat 16 e) m.stagedRoutes.1 m.stagedRoutes.2) else k :=
  have hnot : ¬ (!m.routesOk m.stagedRoutes.1 m.stagedRoutes.2) = true := by rw [hok]; decide
  if_neg hnot

theorem Mod.routeCommit_of_not_ok {m : Mod} (cast : Bool) (hbad : m.routesOk m.stagedRoutes.1 m.stagedRoutes.2 = false) :
    m.routeCommit cast = m.set F.RTE_CMD_status 0 ST_BAD_ROUTE :=
  have hnot : (!m.routesOk m.stagedRoutes.1 m.stagedRoutes.2) = true := by rw [hbad]; rfl
  if_pos hnot

/-- Settles O38. -/
theorem routeCommands : Obligations.RouteCommands := by
  intro s ho r d e m
  refine ⟨fun hok => ⟨?here, ?broadcast⟩, fun hbad => ⟨?hereBad, ?broadcastBad⟩, ?clear, ?load⟩
  case here => exact State.onMod_host_eq ho (Mod.routeCommit_of_ok false hok)
  case broadcast => exact State.onMod_host_eq ho (Mod.routeCommit_of_ok true hok)
  case hereBad => exact State.onMod_host_eq ho (Mod.routeCommit_of_not_ok false hbad)
  case broadcastBad => exact State.onMod_host_eq ho (Mod.routeCommit_of_not_ok true hbad)
  case clear => exact State.onMod_host_eq ho rfl
  case load =>
    intro t t'
    exact State.onMod_host_eq ho rfl

end Sys2Proof.Machine
end

section
/-! Timeouts, verdicts, step control and casts (chapters 9 to 11). -/

namespace Sys2Proof.Machine

/-! ### Timeouts, the update phase and the verdict (R296, R314-R317, R375) -/

/-- A collective that a timeout finds running ends with `ST_COLL_TIMEOUT` (R375). -/
theorem Mod.collTimeout_of_running {m : Mod} {i : Nat} {o : Op} (ho : (m.queue i).op = some o) (hlo : 0x50 ≤ Rc.opcode o.rcd)
    (hhi : Rc.opcode o.rcd ≤ 0x55) (hrun : o.ready = false) :
    m.collTimeout i =
      let t := m.summary F.FLT_SUMMARY_timeout
      let k := if Rc.opcode o.rcd = 0x55 ∧ RuRec.local_ o.rcd = true then t else t.tagDead (qCtx i) (CoRec.tag o.rcd)
      (k.jobAbort (.q i) ST_COLL_TIMEOUT).complete i := by
  simp only [Mod.collTimeout, ho, hrun, decide_eq_true hlo, decide_eq_true hhi, Bool.and_self, Bool.not_false, if_true,
    Bool.and_eq_true, decide_eq_true_eq]

/-- An update phase whose passes and exchanges have all ended is done (R296). -/
theorem Mod.updPhaseDone_of_over {m : Mod} {c : Nat} (hopen : m.stepOpen c = true) (hstate : m.get F.STEP_STAT_state c ≠ 1)
    (hnot : (m.ctx c).updDone = false) (hover : m.updOver c = true) :
    m.updPhaseDone c =
      let x := m.ctx c
      let n := x.norm.getD (0, false)
      let k := (m.set F.UPD_NORM_norm c n.1).set F.UPD_NORM_valid c (b2n n.2)
      let k := k.set F.UPD_NORM_nonfinite c (b2n (x.normNf || !(num32 n.1).isFin))
      let k := k.set F.UPD_NORM_redo_layers c (min x.redone 65535)
      let k := if x.updErr then k else k.set F.UPD_NORM_phase c 3
      k.setCtx c { k.ctx c with updDone := true } :=
  if_pos (by rw [hopen, hnot, hover, bne_iff_ne.2 hstate]; rfl)

/-- With no condition of Table 10.4 the list of the six holds six times false. -/
theorem Mod.condHolds_of_none {m : Mod} {c : Nat} (hnone : (m.condHolds c).all (! ·) = true) :
    m.condHolds c = List.replicate 6 false :=
  List.eq_replicate_of_mem (fun b hb => by simpa using List.all_eq_true.1 hnone b hb)

/-- Where no condition holds the verdict is to commit and not to halt (R315, R317). -/
theorem Mod.verdictFix_of_none {m : Mod} {c : Nat} (hstate : m.get F.STEP_STAT_state c = 2 ∨ m.get F.STEP_STAT_state c = 3)
    (hloss : (m.ctx c).lossDone = true) (hagg : (m.ctx c).aggDone = true) (hupd : (m.ctx c).updDone = true)
    (hopen : m.on F.STEP_STAT_verdict_fixed c = false) (hnone : (m.condHolds c).all (! ·) = true) :
    m.verdictFix c =
      let k := (m.set F.STEP_STAT_verdict_fixed c 1).set F.STEP_STAT_cond c 0
      (k.setCtx c { k.ctx c with verdict := some (true, false) }).voteGo c := by
  have hst : (decide (m.get F.STEP_STAT_state c = 2) || decide (m.get F.STEP_STAT_state c = 3)) = true := by simpa using hstate
  have hacts : ((List.replicate 6 false).zip (m.condPolicy c)).filter (·.1) = [] := rfl
  have hmask : ((List.range 6).map fun k => b2n ((List.replicate 6 false).getD k false) * 2 ^ k).sum = 0 := by decide
  simp only [Mod.verdictFix, hst, hloss, hagg, hupd, hopen, Mod.condHolds_of_none hnone, hacts, hmask, Bool.not_false,
    Bool.and_self, if_true, List.all_nil, List.any_nil, ne_eq, not_true_eq_false, decide_false, Bool.false_and,
    Bool.false_eq_true, if_false]

/-- Settles O39. -/
theorem stepEvents : Obligations.StepEvents := by
  intro s hw
  refine ⟨fun q o ho hlo hhi hrun => ?timeout, fun c hopen hstate hnot hover => ?update,
    fun c hstate hloss hagg hupd hfix hnone _ => ?verdict⟩
  case timeout => exact State.onMod_engine_eq hw (Mod.collTimeout_of_running ho hlo hhi hrun)
  case update => exact State.onMod_engine_eq hw (Mod.updPhaseDone_of_over hopen hstate hnot hover)
  case verdict => exact State.onMod_engine_eq hw (Mod.verdictFix_of_none hstate hloss hagg hupd hfix hnone)

/-! ### Step control (R315, R319, R323, R324) -/

theorem Mod.stepVeto_of_early {m : Mod} {c : Nat} (hopen : m.stepOpen c = true)
    (hearly : m.on F.STEP_STAT_verdict_fixed c = false) : m.stepVeto c = m.setCtx c { m.ctx c with hostVeto := true } := by
  simp only [Mod.stepVeto, hopen, hearly, Bool.not_true, Bool.false_eq_true, if_false]

theorem Mod.stepVeto_of_closed {m : Mod} {c : Nat} (hclosed : m.stepOpen c = false) :
    m.stepVeto c = m.refuseCtx ST_NO_STEP Blk.STEP c := by
  simp only [Mod.stepVeto, hclosed, Bool.not_false, if_true]

theorem Mod.stepAbandon_of_closed {m : Mod} {c : Nat} (hclosed : m.stepOpen c = false) :
    m.stepAbandon c = m.refuseCtx ST_NO_STEP Blk.STEP c := by
  simp only [Mod.stepAbandon, hclosed, Bool.false_eq_true, if_false]

theorem Mod.stepClose_of_closed {m : Mod} {c : Nat} (hclosed : m.stepOpen c = false) :
    m.stepClose c = m.refuseCtx ST_NO_STEP Blk.STEP c := by
  simp only [Mod.stepClose, hclosed, Bool.false_eq_true, if_false]

/-- A close takes effect once nothing that it waits for runs (R323). -/
theorem Mod.closeNow_of_pending {m : Mod} {c : Nat} (hopen : m.stepOpen c = true) (hpend : m.on F.STEP_STAT_close_pending c = true)
    (hidle : m.opsRunning c [0x62, 0x63, 0x55] = false) (hphase : m.get F.STEP_STAT_state c = 1 ∨ (m.ctx c).updDone = true) :
    m.closeNow c = (((m.steerResolve c false).stepFailed c 0).spanForget c 0).stepTrace c 5 := by
  have hph : (m.get F.STEP_STAT_state c == 1 || (m.ctx c).updDone) = true := by simpa using hphase
  exact if_pos (by rw [hopen, hpend, hidle, hph]; rfl)

/-- Settles O40. -/
theorem stepControl : Obligations.StepControl := by
  intro s c
  refine ⟨fun ho hopen => ⟨fun hearly => ?veto, ?abandon, ?close⟩, fun ho hclosed => ⟨?vetoNone, ?abandonNone, ?closeNone⟩,
    fun hw hopen hpend hidle hphase => ?takesEffect, fun ho hhalt => ?clear, fun ho hhalt => ?clearNone⟩
  case veto => exact State.onMod_host_eq ho (Mod.stepVeto_of_early hopen hearly)
  case abandon => exact State.onMod_host_eq ho (if_pos hopen)
  case close => exact State.onMod_host_eq ho (if_pos hopen)
  case vetoNone => exact State.onMod_host_eq ho (Mod.stepVeto_of_closed hclosed)
  case abandonNone => exact State.onMod_host_eq ho (Mod.stepAbandon_of_closed hclosed)
  case closeNone => exact State.onMod_host_eq ho (Mod.stepClose_of_closed hclosed)
  case takesEffect => exact State.onMod_engine_eq hw (Mod.closeNow_of_pending hopen hpend hidle hphase)
  case clear => exact State.onMod_host_eq ho (if_pos hhalt)
  case clearNone => exact State.onMod_host_eq ho (if_neg hhalt)

theorem Mod.stepSet_of_rest {m : Mod} {c : Nat} (v : Nat)
    (hrest : m.get F.STEP_STAT_state c = 0 ∨ m.get F.STEP_STAT_state c = 5) :
    m.stepSet c v = m.set F.STEP_COMMITTED_step c v := if_pos (by simpa using hrest)

theorem Mod.stepSet_of_open {m : Mod} {c : Nat} (v : Nat) (hidle : m.get F.STEP_STAT_state c ≠ 0)
    (hhalt : m.get F.STEP_STAT_state c ≠ 5) : m.stepSet c v = m.refuseCtx ST_STEP_OPEN Blk.STEP c :=
  if_neg (by simp [hidle, hhalt])

/-- Settles O41: the committed step is 64 bits wide, so that what is written reads back whole. -/
theorem stepSet : Obligations.StepSet := by
  refine fun s c v ho => ⟨fun hrest => ⟨?sets, ?reads⟩, fun hidle hhalt => ?refused⟩
  case sets => exact State.onMod_host_eq ho (Mod.stepSet_of_rest _ hrest)
  case reads =>
    rw [Mod.get_set_self _ _ _ _ (by decide)]
    exact Nat.mod_eq_of_lt v.isLt
  case refused => exact State.onMod_host_eq ho (Mod.stepSet_of_open _ hidle hhalt)

/-! ### Casts (R331, R334, R350, R353) -/

theorem Mod.castLoad_of_ok {m : Mod} {c : Nat} {blank : Bool} {l : List CastEntry} (hidle : m.on F.CAST_CMD_busy c = false)
    (hcheck : m.castCheck c blank = (ST_OK, l)) :
    m.castLoad c blank =
      let k := (m.reach false .rd (m.castListAt c) (32 * l.length)).setCtx c { m.ctx c with castLoaded := true, castList := l }
      let k := ((List.range l.length).zip l).foldl
        (fun m e => m.wrInt (m.castListAt c + 32 * e.1) (leBytes 32 e.2.raw.toNat)) k
      let k := k.set F.CAST_STAT_state c (if (k.ctx c).drain.isSome then 2 else 1)
      (k.set F.CAST_STAT_full_next c 1).castCmdEnd c ST_OK := by
  simp only [Mod.castLoad, hidle, hcheck, Bool.false_eq_true, if_false, ne_eq, not_true_eq_false]

theorem Mod.castUnload_of_idle {m : Mod} {c : Nat} (hidle : m.on F.CAST_CMD_busy c = false) :
    m.castUnload c =
      let k := m.genAbandon c ST_CAST_ABANDONED
      let k := k.setCtx c { k.ctx c with castLoaded := false, castList := [] }
      (k.set F.CAST_STAT_state c 0).castCmdEnd c ST_OK := by
  simp only [Mod.castUnload, hidle, Bool.false_eq_true, if_false]

theorem Mod.castRestore_of_ok {m : Mod} {c : Nat} (check : Bool) (hidle : m.on F.CAST_CMD_busy c = false)
    (hclosed : m.stepOpen c = false) (hloaded : (m.ctx c).castLoaded = true) (hqueues : (ctxQueues c).any m.qBusy = false) :
    m.castRestore c check =
      let g := if m.get F.CAST_RESTORE_GEN_gen c = 0 then m.get F.CAST_GEN_gen_job c else m.get F.CAST_RESTORE_GEN_gen c
      let k := m.set F.CAST_CMD_busy c 1
      let k := (k.setCtx c { k.ctx c with restore := some { gen := BitVec.ofNat 32 g, check := check } }).genAbandon c
        ST_CAST_ABANDONED
      let k := k.set F.CAST_STAT_state c 3
      k.recordTry c g check (k.logical :: k.castPeers c false) := by
  simp only [Mod.castRestore, hidle, hclosed, hloaded, hqueues, Bool.not_true, Bool.false_eq_true, if_false]

/-- Settles O42. -/
theorem castCommands : Obligations.CastCommands := by
  intro s c
  refine ⟨fun blank l ho hidle hcheck => ?load, fun ho hidle => ?unload,
    fun check ho hidle hclosed hloaded hqueues => ?restore, fun r rcd hw _ _ _ => ?complete, fun hw hlimit _ => ?abandon⟩
  case load => exact State.onMod_host_eq ho (Mod.castLoad_of_ok hidle hcheck)
  case unload => exact State.onMod_host_eq ho (Mod.castUnload_of_idle hidle)
  case restore => exact State.onMod_host_eq ho (Mod.castRestore_of_ok check hidle hclosed hloaded hqueues)
  case complete => exact State.onMod_engine_eq hw rfl
  case abandon => exact State.onMod_engine_eq hw (if_neg hlimit)

end Sys2Proof.Machine
end

section
/-! Resets, hangs, dumps, microcode and observation (chapters 12 and 13). -/

namespace Sys2Proof.Machine

/-! ### What a whole-module reset clears (R368, R369) -/

/-- The time base, memory, the flags, the supply and flash: what no register holds. -/
def Mod.unregistered (m : Mod) : Nat × Tab Byte × Tab W64 × Rails × Tab Byte := (m.time, m.mem, m.flags, m.pwr.rails, m.flash)

theorem Mod.unregistered_setRegAt (m : Mod) (a r v : Nat) : (m.setRegAt a r v).unregistered = m.unregistered := rfl
theorem Mod.unregistered_set (m : Mod) (f : Fld) (i v : Nat) : (m.set f i v).unregistered = m.unregistered := rfl
theorem Mod.unregistered_keepReg (m old : Mod) (r : Reg) (i : Nat) :
    (m.keepReg old r i).unregistered = m.unregistered := Mod.unregistered_setRegAt _ _ _ _

theorem Mod.unregistered_keep (m old : Mod) (i : Nat) (fs : List Fld) :
    (m.keep old i fs).unregistered = m.unregistered := by
  induction fs generalizing m with
  | nil => rfl
  | cons f fs ih => exact (ih _).trans (Mod.unregistered_set _ _ _ _)

theorem Mod.unregistered_each {f : Mod → Nat → Mod} (h : ∀ m k, (f m k).unregistered = m.unregistered) (l : List Nat) (m : Mod) :
    (m.each l f).unregistered = m.unregistered := by
  induction l generalizing m with
  | nil => rfl
  | cons k l ih => exact (ih _).trans (h _ _)

theorem Mod.wholeReset_unregistered (m : Mod) (cause : Nat) :
    (m.wholeReset cause false).unregistered = (0, [], [], .waitFlow, m.flash) := by
  simp only [Mod.wholeReset, Bool.false_eq_true, if_false]
  rw [Mod.unregistered_set, Mod.unregistered_set, Mod.unregistered_set, Mod.unregistered_keepReg, Mod.unregistered_keepReg,
    Mod.unregistered_keepReg, Mod.unregistered_each fun _ _ => Mod.unregistered_keep _ _ _ _, Mod.unregistered_keep,
    Mod.unregistered_each]
  · rfl
  · intro n b
    cases regFind b with
    | none => rfl
    | some x => exact Mod.unregistered_keepReg _ _ _ _

/-! ### Resets (R364, R365, R368, R384, R463) -/

theorem Mod.moduleReset_of_key {m : Mod} {v : Nat} (hkey : bits v 0 16 = 0xA5C3) (hmod : v.testBit 16 = true) :
    m.moduleReset v = m.wholeReset 1 false := by
  simp only [Mod.moduleReset, hkey, hmod, ne_eq, not_true_eq_false, if_false, if_true]

theorem Mod.partReset_of_running {m : Mod} {p : Nat} (hrun : m.get F.PART_STAT_state p = 2 ∨ m.get F.PART_STAT_state p = 3)
    (hwell : m.failed = false) : m.partReset p = m.partResetNow p 2 ST_PART_RESET :=
  if_pos (by simpa [hwell] using hrun)

theorem Mod.partResetComplete_of_reset {m : Mod} {p : Nat} (hstate : m.get F.PART_STAT_state p = 5)
    (hcool : (m.part p).selfRefresh = false) (hwell : m.failed = false) : m.partResetComplete p = m.partReturn p :=
  if_pos (by rw [hstate, hcool, hwell]; rfl)

theorem Mod.partEnable_of_off {m : Mod} {p : Nat} (hoff : m.get F.PART_STAT_state p = 0)
    (hready : (m.set F.PART_CTL_enable p 1).on F.BOOT_STAT_ready = true) (hwell : (m.set F.PART_CTL_enable p 1).failed = false)
    (hnever : (((m.set F.PART_CTL_enable p 1).partRun p).part p).stopTime = 0) :
    m.partEnable p = (m.set F.PART_CTL_enable p 1).partRun p := by
  simp [Mod.partEnable, hoff, hready, hwell, hnever]

theorem Mod.partDisable_of_unused {m : Mod} {p : Nat} (hpend : (m.get F.FLT_PEND_BLK_part).testBit p = false)
    (hfree : ∀ c, c < 64 → m.ctxState c = 0 ∨ (m.get F.CTX_CFG_part_mask c).testBit p = false)
    (hrun : m.get F.PART_STAT_state p = 2 ∨ m.get F.PART_STAT_state p = 3) :
    m.partDisable p = ((m.set F.PART_CTL_enable p 0).parkEnd p ST_BUSY).partOff p := by
  have hnone : ((List.range 64).any fun c => m.ctxState c != 0 && (m.get F.CTX_CFG_part_mask c).testBit p) = false := by
    refine List.any_eq_false.2 fun c hc => ?_
    rcases hfree c (List.mem_range.1 hc) with h | h <;> simp [h]
  have hst : (decide (m.get F.PART_STAT_state p = 2) || decide (m.get F.PART_STAT_state p = 3)) = true := by simpa using hrun
  simp only [Mod.partDisable, hpend, hnone, hst, Bool.false_eq_true, if_false, if_true]

/-- Settles O43. -/
theorem resets : Obligations.Resets := by
  refine ⟨fun s v ho => ⟨fun hkey hmod => ⟨?module, ?left⟩, fun hkey => ?refused⟩, fun s p =>
    ⟨fun ho hrun hwell => ?reset, fun hp hstate hcool hwell => ?complete, fun ho hoff hready hwell hnever => ?enable,
      fun ho hpend hfree hrun => ?disable⟩⟩
  case module => exact State.onMod_host_eq ho (Mod.moduleReset_of_key hkey hmod)
  case left => simpa only [Mod.unregistered, Prod.mk.injEq] using s.mod.wholeReset_unregistered 1
  case refused => exact State.onMod_host_eq ho (if_pos hkey)
  case reset => exact State.onMod_host_eq ho (Mod.partReset_of_running hrun hwell)
  case complete => exact State.onMod_always_eq hp (Mod.partResetComplete_of_reset hstate hcool hwell)
  case enable => exact State.onMod_host_eq ho (Mod.partEnable_of_off hoff hready hwell hnever)
  case disable => exact State.onMod_host_eq ho (Mod.partDisable_of_unused hpend hfree hrun)

/-! ### Hang detection (R373, R374, R377, R378) -/

theorem Mod.opTimeout_of_timed {m : Mod} {i : Nat} {o : Op} (ho : (m.queue i).op = some o) (htimed : timedOp (Rc.opcode o.rcd) = true) :
    m.opTimeout i = (m.summary F.FLT_SUMMARY_timeout).abortOp i ST_OP_TIMEOUT := by
  simp only [Mod.opTimeout, ho, htimed, if_true]

/-- The one partition whose share does not stop is reset (R373). -/
theorem Mod.shareStop_of_one {m : Mod} {i parts p : Nat} (hhalt : (m.queue i).halted = some ST_OP_TIMEOUT)
    (hone : bitList 16 (parts &&& m.qMask i) = [p]) (hrun : m.get F.PART_STAT_state p = 2) :
    m.shareStop i parts = (if m.lastReset p then m else m.dumpAuto ST_OP_TIMEOUT 3).faultReset p ST_OP_TIMEOUT := by
  have hkept : ([p].filter fun p => m.get F.PART_STAT_state p == 2) = [p] := by simp [hrun]
  rw [Mod.shareStop, if_pos hhalt, hone, hkept]
  exact if_neg (not_not_intro hrun)

theorem Mod.queueStall_of_waiting {m : Mod} {i : Nat} (hlimit : m.get F.HANG_CTX_CFG_queue_ms (qCtx i) ≠ 0) (hon : m.qOn i = true)
    (hwait : (m.queue i).waiting ≠ 0) (hhalt : (m.queue i).halted = none) (hheld : m.held i = false)
    (hnew : (m.queue i).stalled = false) :
    m.queueStall i = (m.setQueue i { m.queue i with stalled := true }).log
      { st := ST_QUEUE_STALL, cls := .event, block := Blk.Q, ctx := qCtx i, queue := i } :=
  if_neg (by simp [hlimit, hon, hwait, hhalt, hheld, hnew])

theorem Mod.deadlockScan_of_on {m : Mod} (hon : m.on F.HANG_CFG_enable = true) :
    m.deadlockScan =
      let fs := m.findings
      let keep := m.hang.knots.filter fun k => fs.any fun f => k.kind == f.1 && k.members.map (·.1) == f.2.map (·.1)
      fs.foldl Mod.knotStep { m with hang := { m.hang with knots := keep } } :=
  if_neg (by rw [hon]; decide)

theorem Mod.deadlockScan_of_off {m : Mod} (hoff : m.on F.HANG_CFG_enable = false) :
    m.deadlockScan = { m with hang := { m.hang with knots := [] } } :=
  if_pos (by rw [hoff]; rfl)

/-- Settles O44. -/
theorem hangEvents : Obligations.HangEvents := by
  intro s hw
  refine ⟨fun q o ho htimed => ?timeout, fun q parts p hhalt hone hrun => ?share,
    fun q hlimit hon hwait hhalt hheld hnew => ?stall, fun hon => ?scan, fun hoff => ?noScan⟩
  case timeout => exact State.onMod_engine_eq hw (Mod.opTimeout_of_timed ho htimed)
  case share => exact State.onMod_engine_eq hw (Mod.shareStop_of_one hhalt hone hrun)
  case stall => exact State.onMod_engine_eq hw (Mod.queueStall_of_waiting hlimit hon hwait hhalt hheld hnew)
  case scan => exact State.onMod_engine_eq hw (Mod.deadlockScan_of_on hon)
  case noScan => exact State.onMod_engine_eq hw (Mod.deadlockScan_of_off hoff)

/-! ### Silence and crash dumps (R371, R372, R379, R380) -/

/-- An access of BAR0 over a link that is up leaves what its effect leaves, and nothing follows (R371). -/
theorem State.onMod_bar0_eq {s : State} {f : Mod → Mod} {m : Mod} (hp : s.mod.powered = true) (hlink : s.mod.pcie.link = true)
    (h : f s.mod = m) : s.onMod (fun m => m.bar0 f) = .next (s.leave m) := by
  rw [State.onMod_eq, Mod.bar0, hp, hlink, Bool.and_self, if_pos rfl, h]

theorem Mod.bar0NoResponse_of_write (m : Mod) (off : Nat) :
    m.bar0NoResponse off true = m.log { st := ST_NO_RESPONSE, cls := .event, block := blockOf off, d0 := off } := by
  simp only [Mod.bar0NoResponse, if_true]

theorem Mod.bar0NoResponse_of_read (m : Mod) (off : Nat) :
    m.bar0NoResponse off false = (m.log { st := ST_NO_RESPONSE, cls := .event, block := blockOf off, d0 := off }).emit
      (.completion (List.replicate 8 0xFF) false) := by
  simp only [Mod.bar0NoResponse, Bool.false_eq_true, if_false]

theorem Mod.dumpTrigger_of_free {m : Mod} (hvalid : m.on F.DUMP_STAT_valid = false) (hbusy : m.on F.DUMP_STAT_busy = false) :
    m.dumpTrigger = { (m.set F.DUMP_STAT_busy 0 1) with capture := some { cause := ST_OK, trigger := 0, start := m.time } } :=
  if_neg (by rw [hvalid, hbusy]; decide)

theorem Mod.dumpTrigger_of_held {m : Mod} (hvalid : m.on F.DUMP_STAT_valid = true) :
    m.dumpTrigger = m.bump F.DUMP_STAT_missed 0 1 :=
  if_pos (by rw [hvalid]; rfl)

/-- The end of a capture stores an image and publishes it with its counts. -/
theorem Mod.dumpDone_of_capture {m : Mod} {c : Capture} (l : List (List Byte × Option Nat)) (hc : m.capture = some c) :
    ∃ image sections silent, m.dumpDone l =
      (((({ m with freeN := m.freeN + 1, dump := image, capture := none } : Mod).set F.DUMP_STAT_busy 0 0).set
        F.DUMP_STAT_valid 0 1).set F.DUMP_STAT_sections 0 sections).set F.DUMP_STAT_no_response 0 silent := by
  simp only [Mod.dumpDone, hc, Mod.draw]
  exact ⟨_, _, _, rfl⟩

/-- Settles O45. -/
theorem dumpsAndSilence : Obligations.DumpsAndSilence := by
  refine ⟨fun s hp => ⟨?armature, fun off hlink => ⟨?write, ?read⟩⟩, fun s =>
    ⟨fun ho => ⟨fun hvalid hbusy => ?trigger, fun hvalid => ?missed, ?discard⟩, fun l c hp hc => ⟨?done, ?captured⟩⟩⟩
  case armature => exact State.onMod_always_eq hp rfl
  case write => exact State.onMod_bar0_eq hp hlink (Mod.bar0NoResponse_of_write _ _)
  case read => exact State.onMod_bar0_eq hp hlink (Mod.bar0NoResponse_of_read _ _)
  case trigger => exact State.onMod_host_eq ho (Mod.dumpTrigger_of_free hvalid hbusy)
  case missed => exact State.onMod_host_eq ho (Mod.dumpTrigger_of_held hvalid)
  case discard => exact State.onMod_host_eq ho rfl
  case done => exact State.onMod_always_eq hp rfl
  case captured =>
    obtain ⟨image, sections, silent, hdone⟩ := Mod.dumpDone_of_capture l hc
    refine ⟨by rw [hdone]; rfl, ?_⟩
    rw [hdone, Mod.on, Mod.get_set_same _ F.DUMP_STAT_no_response F.DUMP_STAT_valid 0 0 _ rfl rfl (by decide) (by decide),
      Mod.get_set_same _ F.DUMP_STAT_sections F.DUMP_STAT_valid 0 0 _ rfl rfl (by decide) (by decide),
      Mod.get_set_self _ _ _ _ (by decide)]
    rfl

/-! ### Microcode (R385) -/

/-- A load whose image does not verify, or whose microcode is not well formed, ends with its status; any other asks for a park. -/
theorem Mod.ucodeLoad_of_idle {m : Mod} {p : Nat} (hidle : m.on F.PART_UCODE_CMD_busy = false) :
    m.ucodeLoad p =
      let m := m.imageReach (m.get F.PART_UCODE_ADDR_base * 4096)
      let x := m.readImage (m.get F.PART_UCODE_ADDR_base * 4096)
      let st := m.verified x [3] (m.part p).ucode.svn
      if st ≠ ST_OK then m.set F.PART_UCODE_CMD_status 0 st
      else if Config.ucodeOk (x.2.drop 1024) = true then
        (m.setPart p { m.part p with park := some (imageOf x.2) }).set F.PART_UCODE_CMD_busy 0 1
      else m.set F.PART_UCODE_CMD_status 0 ST_UCODE_INVALID := by
  simp only [Mod.ucodeLoad, hidle, Bool.false_eq_true, if_false]
  generalize m.imageReach (m.get F.PART_UCODE_ADDR_base * 4096) = k
  generalize k.readImage (k.get F.PART_UCODE_ADDR_base * 4096) = x
  by_cases hst : k.verified x [3] (k.part p).ucode.svn = ST_OK
  · have hne : ST_UCODE_INVALID ≠ ST_OK := by decide
    cases Config.ucodeOk (x.2.drop 1024) <;> simp [hst, hne]
  · simp [hst]

theorem Mod.ucodeParked_of_idle {m : Mod} {p : Nat} {im : Image} (hpark : (m.part p).park = some im)
    (hrun : m.get F.PART_STAT_state p = 2) (hidle : m.runsOn (2 ^ p) (fun _ => true) = false) :
    m.ucodeParked p =
      (((m.setPart p { m.part p with ucode := im }).set F.PART_STAT_ucode_ver p im.ver).parkEnd p ST_OK).resume p 4 0 := by
  simp [Mod.ucodeParked, hpark, hrun, hidle]

/-- Settles O46. -/
theorem microcodeLoads : Obligations.MicrocodeLoads := by
  refine fun s p => ⟨fun ho hidle => ?load, fun im hw hpark hrun hidle => ⟨?parked, ?timeout⟩⟩
  case load => exact State.onMod_host_eq ho (Mod.ucodeLoad_of_idle hidle)
  case parked => exact State.onMod_engine_eq hw (Mod.ucodeParked_of_idle hpark hrun hidle)
  case timeout => exact State.onMod_engine_eq hw rfl

/-! ### Counter windows, trace, watch, and the end of a global stop (R400-R416) -/

theorem Mod.watchAnswer_of_silent {m : Mod} {id : Nat} {w : WatchWait} (hw : m.watchWaits.find? (·.id == id) = some w) :
    m.watchAnswer id false =
      ({ m with watchWaits := m.watchWaits.filter (·.id != id) } : Mod).watchSkip w.ctx w.entry w.layer := by
  simp only [Mod.watchAnswer, hw, Bool.false_eq_true, if_false]

/-- Settles O47. -/
theorem observationCommands : Obligations.ObservationCommands := by
  refine fun s => ⟨fun hw => ?window, fun ho => ⟨fun v => ?mark, fun b => ?flush⟩, fun b hw hon => ?idle, fun id w hw hwait => ?watch⟩
  case window => exact State.onMod_engine_eq hw rfl
  case mark => exact State.onMod_host_eq ho rfl
  case flush => exact State.onMod_host_eq ho rfl
  case idle => exact State.onMod_engine_eq hw (if_pos hon)
  case watch => exact State.onMod_engine_eq hw (Mod.watchAnswer_of_silent hwait)

/-- Settles O49. -/
theorem stopReleases : Obligations.StopReleases := by
  refine fun s => ⟨fun ho hstate => ?release, fun hp hstate => ?resume⟩
  case release => exact State.onMod_host_eq ho (if_pos hstate)
  case resume => exact State.onMod_always_eq hp (if_neg (not_not_intro hstate))

end Sys2Proof.Machine
end

section
/-! Bring-up, `BOOT_CMD`, `SEC_CMD`, presence and the seal (chapter 14). -/

namespace Sys2Proof.Machine

/-! ### Bring-up (R417-R427, R470) -/

theorem Mod.powerOn_of_down {m : Mod} (hdown : m.pwr.rails = .off ∨ m.pwr.rails = .waitFlow) : m.powerOn = m.wholeReset 0 true := by
  rcases hdown with h | h <;> simp only [Mod.powerOn, h]

/-- Confirmed flow brings the rails up; without a valid header and firmware image recovery mode follows (R427). -/
theorem Mod.flowConfirmed_of_waiting {m : Mod} (hwait : m.pwr.rails = .waitFlow) :
    m.flowConfirmed =
      let m := ({ m with pwr := { m.pwr with rails := .on, noFlowSeen := false } } : Mod).identify
      let fw := m.flashImage 0x10000 (2 ^ 25)
      if leNat (flashRead m.flash 0 4) = 0x9E17B007 ∧ m.verified fw [1] (m.get F.SEC_STAT_min_svn) = ST_OK then
        m.armatureUp fw.2 (m.flashImage 0x2010000 (2 ^ 20))
      else m.enterRecovery := by
  have hrails : (m.pwr.rails != .waitFlow) = false := by rw [hwait]; rfl
  simp only [Mod.flowConfirmed, hrails, Bool.false_eq_true, if_false]
  generalize ({ m with pwr := { m.pwr with rails := .on, noFlowSeen := false } } : Mod).identify = k
  by_cases hhead : leNat (flashRead k.flash 0 4) = 0x9E17B007 <;> simp [hhead]

theorem Mod.bringupReady_of_step5 {m : Mod} (failed : Nat) (hp : m.powered = true) (hstep : m.get F.BOOT_STAT_step = 5)
    (hready : m.on F.BOOT_STAT_ready = false) :
    m.bringupReady failed =
      let m := m.zeroHbm.seedsNew
      let m := m.each ((List.range 16).filter fun p => failed.testBit p) Mod.partFailed
      let m := m.each ((List.range 16).filter fun p => m.on F.PART_CTL_enable p && !failed.testBit p) Mod.partRun
      let m := m.set F.CLK_STAT_pclk_lock 0 ((((List.range 16).filter fun p => m.on F.PART_CTL_enable p).map (2 ^ ·)).sum)
      let m := ((m.set F.BOOT_STAT_ready 0 1).set F.BOOT_STAT_step 0 10).sidesGate.clocks.msix 0 1
      if (List.range 8).all fun n => m.get F.LNK_STAT_state n == 0 then m.takeRoot else m :=
  if_neg (by simp [hp, hstep, hready])

/-- Settles O50. -/
theorem bringUp : Obligations.BringUp := by
  refine fun s => ⟨fun hdown => ?powerOn, fun hwait => ?flow, fun failed hp hstep hready => ?ready⟩
  case powerOn => exact State.onMod_next (Mod.powerOn_of_down hdown)
  case flow => exact State.onMod_next (Mod.flowConfirmed_of_waiting hwait)
  case ready => exact State.onMod_always_eq hp (Mod.bringupReady_of_step5 _ hp hstep hready)

/-! ### `BOOT_CMD` (R428, R439-R445) -/

/-- A command of a block that recovery mode serves has its effect there, and nothing follows (R427). -/
theorem State.onMod_recovery_eq {s : State} {blk : Nat} {f : Mod → Mod} {m : Mod} (hp : s.mod.powered = true)
    (hlink : s.mod.pcie.link = true) (hrec : s.mod.inRecovery = true) (hblk : recoveryBlocks.contains blk = true)
    (h : f s.mod = m) : s.onMod (fun m => m.host blk f) = .next (s.leave m) := by
  rw [State.onMod_eq, Mod.host, hp, hlink, hrec, hblk, ← h]
  rfl

/-- A command of `BOOT_CMD` that finds the staging SRAM free ends with the status that its work gives. -/
theorem Mod.bootRun_of_free {m k : Mod} {f : Mod → Status × Mod} {st : Status} (hfree : m.stagingBusy = false) (h : f m = (st, k)) :
    m.bootRun f = k.bootEnd st := by
  simp only [Mod.bootRun, hfree, h, Bool.false_eq_true, if_false]

theorem Mod.bootVolatile_of_free {m : Mod} (target persist : Bool) (hfree : m.stagingBusy = false) :
    m.bootVolatile target persist =
      let m := m.bootReach
      let x := m.bootObject
      let st := m.verified x [4, 5, 6] (m.volatileLeast (Ih.kind x.2) target)
      let b := m.boot
      if st ≠ ST_OK then m.bootEnd st
      else if Ih.kind x.2 = 4 then ({ m with boot := { b with armature := imageOf x.2 } } : Mod).bootEnd ST_OK
      else if Ih.kind x.2 = 5 then
        ({ m with boot := if target then { b with link1 := imageOf x.2 } else { b with link0 := imageOf x.2 } } : Mod).bootEnd ST_OK
      else if persist = true ∧ m.present = true then m.calWrite.bootEnd ST_OK
      else m.bootEnd ST_OK := by
  simp only [Mod.bootVolatile, Mod.bootRun, hfree, Bool.false_eq_true, if_false]
  generalize m.bootReach = k
  split_ifs with h1 h2 h3 h4 h5 h5 <;> simp_all

theorem Mod.bootFirmware_of_ok {m : Mod} {l : List Byte} (hfree : m.stagingBusy = false) (hpres : m.present = true)
    (himage : m.bootReach.bootImage [1] (m.bootReach.get F.SEC_STAT_min_svn) (2 ^ 25) = .ok l) :
    m.bootFirmware = (m.bootReach.flashPut 0x10000 (2 ^ 25) l).bootEnd ST_OK :=
  Mod.bootRun_of_free hfree (by simp only [hpres, himage, Bool.not_true, Bool.false_eq_true, if_false])

theorem Mod.bootFirmware_of_error {m : Mod} {st : Status} (hfree : m.stagingBusy = false) (hpres : m.present = true)
    (himage : m.bootReach.bootImage [1] (m.bootReach.get F.SEC_STAT_min_svn) (2 ^ 25) = .error st) :
    m.bootFirmware = m.bootReach.bootEnd st :=
  Mod.bootRun_of_free hfree (by simp only [hpres, himage, Bool.not_true, Bool.false_eq_true, if_false])

theorem Mod.bootFirmware_of_absent {m : Mod} (hfree : m.stagingBusy = false) (hpres : m.present = false) :
    m.bootFirmware = m.bootEnd ST_NO_PRESENCE :=
  Mod.bootRun_of_free hfree (by simp only [hpres, Bool.not_false, if_true])

theorem Mod.bootConfig_of_ok {m : Mod} {l : List Byte} (hfree : m.stagingBusy = false) (hpres : m.present = true)
    (himage : m.bootReach.bootImage [2] 0 (2 ^ 20) = .ok l) :
    m.bootConfig = (m.bootReach.flashPut 0x2010000 (2 ^ 20) l).bootEnd ST_OK :=
  Mod.bootRun_of_free hfree (by simp only [hpres, himage, Bool.not_true, Bool.false_eq_true, if_false])

theorem Mod.bootConfig_of_error {m : Mod} {st : Status} (hfree : m.stagingBusy = false) (hpres : m.present = true)
    (himage : m.bootReach.bootImage [2] 0 (2 ^ 20) = .error st) : m.bootConfig = m.bootReach.bootEnd st :=
  Mod.bootRun_of_free hfree (by simp only [hpres, himage, Bool.not_true, Bool.false_eq_true, if_false])

theorem Mod.bootConfig_of_absent {m : Mod} (hfree : m.stagingBusy = false) (hpres : m.present = false) :
    m.bootConfig = m.bootEnd ST_NO_PRESENCE :=
  Mod.bootRun_of_free hfree (by simp only [hpres, Bool.not_false, if_true])

theorem Mod.bootErase_of_present {m : Mod} (hfree : m.stagingBusy = false) (hpres : m.present = true) :
    m.bootErase = ({ m with flash := m.flash.clear (evSector 16) (evSector 256), boot := { m.boot with evRoll := 0 } } : Mod).bootEnd
      ST_OK :=
  Mod.bootRun_of_free hfree (by simp only [hpres, Bool.not_true, Bool.false_eq_true, if_false])

theorem Mod.bootErase_of_absent {m : Mod} (hfree : m.stagingBusy = false) (hpres : m.present = false) :
    m.bootErase = m.bootEnd ST_NO_PRESENCE :=
  Mod.bootRun_of_free hfree (by simp only [hpres, Bool.not_false, if_true])

/-- A copy whose ranges lie in the flash and in the address space writes the flash's bytes, 4 KiB at a time (R422). -/
theorem Mod.bootCopy_of_inside {m : Mod} {off : Nat} (hfree : m.stagingBusy = false) (hrec : m.inRecovery = false)
    (hsrc : off * 4096 + m.get F.BOOT_LEN_bytes ≤ 2 ^ 27)
    (hdst : m.get F.BOOT_IMG_ADDR_addr * 1024 + m.get F.BOOT_LEN_bytes ≤ 2 ^ 40) :
    m.bootCopy off =
      let n := m.get F.BOOT_LEN_bytes
      let dst := m.get F.BOOT_IMG_ADDR_addr * 1024
      let l := flashRead m.flash (off * 4096) n
      (m.each (List.range (n / 4096)) fun m k => m.wrInt (dst + 4096 * k) (slice l (4096 * k) 4096)).bootEnd ST_OK := by
  refine Mod.bootRun_of_free hfree ?_
  simp only [hrec, Bool.false_eq_true, if_false, decide_eq_false (Nat.not_lt.2 hsrc), decide_eq_false (Nat.not_lt.2 hdst),
    Bool.or_self]

theorem Mod.bootCopy_of_outside {m : Mod} {off : Nat} (hfree : m.stagingBusy = false)
    (hsrc : 2 ^ 27 < off * 4096 + m.get F.BOOT_LEN_bytes) : m.bootCopy off = m.bootEnd ST_BAD_ACCESS :=
  Mod.bootRun_of_free hfree (by simp only [decide_eq_true hsrc, Bool.true_or, if_true])

theorem Mod.bootRecover_of_ok {m : Mod} {l : List Byte} (hfree : m.stagingBusy = false) (hrec : m.inRecovery = true)
    (himage : m.bootReach.bootImage [1] (m.bootReach.get F.SEC_STAT_min_svn) (2 ^ 25) = .ok l) :
    m.bootRecover =
      let k := m.bootReach
      let cfg := match k.boot.recoveryCfg with | some c => (ST_OK, c) | none => k.flashImage 0x2010000 (2 ^ 20)
      (({ k with pcie := { k.pcie with bar4Log2 := 34 } } : Mod).armatureUp l cfg).bootEnd ST_OK :=
  Mod.bootRun_of_free hfree (by simp only [hrec, himage, Bool.not_true, Bool.false_eq_true, if_false] <;> rfl)

theorem Mod.bootRecover_of_error {m : Mod} {st : Status} (hfree : m.stagingBusy = false) (hrec : m.inRecovery = true)
    (himage : m.bootReach.bootImage [1] (m.bootReach.get F.SEC_STAT_min_svn) (2 ^ 25) = .error st) :
    m.bootRecover = m.bootReach.bootEnd st :=
  Mod.bootRun_of_free hfree (by simp only [hrec, himage, Bool.not_true, Bool.false_eq_true, if_false])

theorem Mod.bootRecoverCfg_of_ok {m : Mod} {l : List Byte} (hfree : m.stagingBusy = false) (hrec : m.inRecovery = true)
    (himage : m.bootReach.bootImage [2] 0 (2 ^ 25) = .ok l) :
    m.bootRecoverCfg = ({ m.bootReach with boot := { m.bootReach.boot with recoveryCfg := some l } } : Mod).bootEnd ST_OK :=
  Mod.bootRun_of_free hfree (by simp only [hrec, himage, Bool.not_true, Bool.false_eq_true, if_false])

theorem Mod.bootRecoverCfg_of_error {m : Mod} {st : Status} (hfree : m.stagingBusy = false) (hrec : m.inRecovery = true)
    (himage : m.bootReach.bootImage [2] 0 (2 ^ 25) = .error st) : m.bootRecoverCfg = m.bootReach.bootEnd st :=
  Mod.bootRun_of_free hfree (by simp only [hrec, himage, Bool.not_true, Bool.false_eq_true, if_false])

/-- Settles O51. -/
theorem bootOperations : Obligations.BootOperations := by
  refine ⟨fun s ho hfree => ⟨fun target persist => ?volatile, fun hpres => ⟨?firmware, ?config, ?erase⟩,
    fun hpres => ⟨?firmwareAbsent, ?configAbsent, ?eraseAbsent⟩, fun off hrec => ⟨fun hsrc hdst => ?copy, fun hsrc => ?outside⟩⟩,
    fun s hp hlink hrec hfree => ⟨?recoveryRun, ?recoveryConfig⟩⟩
  case volatile => exact State.onMod_host_eq ho (Mod.bootVolatile_of_free target persist hfree)
  case firmware =>
    cases himage : s.mod.bootReach.bootImage [1] (s.mod.bootReach.get F.SEC_STAT_min_svn) (2 ^ 25) with
    | ok l => exact State.onMod_host_eq ho (Mod.bootFirmware_of_ok hfree hpres himage)
    | error st => exact State.onMod_host_eq ho (Mod.bootFirmware_of_error hfree hpres himage)
  case config =>
    cases himage : s.mod.bootReach.bootImage [2] 0 (2 ^ 20) with
    | ok l => exact State.onMod_host_eq ho (Mod.bootConfig_of_ok hfree hpres himage)
    | error st => exact State.onMod_host_eq ho (Mod.bootConfig_of_error hfree hpres himage)
  case erase => exact State.onMod_host_eq ho (Mod.bootErase_of_present hfree hpres)
  case firmwareAbsent => exact State.onMod_host_eq ho (Mod.bootFirmware_of_absent hfree hpres)
  case configAbsent => exact State.onMod_host_eq ho (Mod.bootConfig_of_absent hfree hpres)
  case eraseAbsent => exact State.onMod_host_eq ho (Mod.bootErase_of_absent hfree hpres)
  case copy => exact State.onMod_host_eq ho (Mod.bootCopy_of_inside hfree hrec hsrc hdst)
  case outside => exact State.onMod_host_eq ho (Mod.bootCopy_of_outside hfree hsrc)
  case recoveryRun =>
    cases himage : s.mod.bootReach.bootImage [1] (s.mod.bootReach.get F.SEC_STAT_min_svn) (2 ^ 25) with
    | ok l => exact State.onMod_recovery_eq hp hlink hrec rfl (Mod.bootRecover_of_ok hfree hrec himage)
    | error st => exact State.onMod_recovery_eq hp hlink hrec rfl (Mod.bootRecover_of_error hfree hrec himage)
  case recoveryConfig =>
    cases himage : s.mod.bootReach.bootImage [2] 0 (2 ^ 25) with
    | ok l => exact State.onMod_recovery_eq hp hlink hrec rfl (Mod.bootRecoverCfg_of_ok hfree hrec himage)
    | error st => exact State.onMod_recovery_eq hp hlink hrec rfl (Mod.bootRecoverCfg_of_error hfree hrec himage)

end Sys2Proof.Machine
end

section
/-! `SEC_CMD`, presence, the seal and PCIe (chapter 14). -/

namespace Sys2Proof.Machine

/-! ### `SEC_CMD` (R437-R440, R447) -/

/-- A command of `SEC_CMD` that finds the staging SRAM free ends with the status that its work gives, and vector 1. -/
theorem Mod.secRun_of_free {m k : Mod} {f : Mod → Status × Mod} {st : Status} (hfree : m.stagingBusy = false) (h : f m = (st, k)) :
    m.secRun f = (k.set F.SEC_CMD_status 0 st).msix 0 1 := by
  simp only [Mod.secRun, hfree, h, Bool.false_eq_true, if_false]

section
variable {m : Mod} {l : List Byte} {st : Status} (hfree : m.stagingBusy = false)
include hfree

theorem Mod.secProvision_of_ok (hok : m.identityRefusal false = ST_OK)
    (himage : m.bootReach.bootImage [8] 0 (2 ^ 25) true = .ok l) :
    m.secProvision = ((m.bootReach.setOwner (some (keyHash (slice l 0x400 384)))).set F.SEC_CMD_status 0 ST_OK).msix 0 1 :=
  Mod.secRun_of_free hfree (by simp only [hok, himage, ne_eq, not_true_eq_false, if_false])

theorem Mod.secProvision_of_error (hok : m.identityRefusal false = ST_OK)
    (himage : m.bootReach.bootImage [8] 0 (2 ^ 25) true = .error st) :
    m.secProvision = (m.bootReach.set F.SEC_CMD_status 0 st).msix 0 1 :=
  Mod.secRun_of_free hfree (by simp only [hok, himage, ne_eq, not_true_eq_false, if_false])

theorem Mod.secProvision_of_refused (hbad : m.identityRefusal false ≠ ST_OK) :
    m.secProvision = (m.set F.SEC_CMD_status 0 (m.identityRefusal false)).msix 0 1 :=
  Mod.secRun_of_free hfree (if_pos hbad)

/-- A payload of zeros removes the owner key; another must be a modulus of 384 bytes (R439). -/
theorem Mod.secReplace_of_ok (hok : m.identityRefusal true = ST_OK) (himage : m.bootReach.bootImage [8] 0 (2 ^ 25) = .ok l) :
    m.secReplace =
      if (l.drop 0x400).all (· == 0) then ((m.bootReach.setOwner none).set F.SEC_CMD_status 0 ST_OK).msix 0 1
      else if (l.drop 0x400).length ≠ 384 then (m.bootReach.set F.SEC_CMD_status 0 ST_SIG_INVALID).msix 0 1
      else ((m.bootReach.setOwner (some (keyHash (l.drop 0x400)))).set F.SEC_CMD_status 0 ST_OK).msix 0 1 := by
  split_ifs with hzero hlen
  · exact Mod.secRun_of_free hfree (by simp only [hok, himage, hzero, ne_eq, not_true_eq_false, if_false, if_true])
  · exact Mod.secRun_of_free hfree (by
      simp only [hok, himage, hzero, ne_eq, not_true_eq_false, if_false, if_pos hlen, Bool.false_eq_true])
  · exact Mod.secRun_of_free hfree (by
      simp only [hok, himage, hzero, ne_eq, not_true_eq_false, if_false, if_neg hlen, Bool.false_eq_true])

theorem Mod.secReplace_of_error (hok : m.identityRefusal true = ST_OK) (himage : m.bootReach.bootImage [8] 0 (2 ^ 25) = .error st) :
    m.secReplace = (m.bootReach.set F.SEC_CMD_status 0 st).msix 0 1 :=
  Mod.secRun_of_free hfree (by simp only [hok, himage, ne_eq, not_true_eq_false, if_false])

theorem Mod.secChain_of_ok (hok : m.identityRefusal true = ST_OK) (himage : m.bootReach.bootImage [9] 0 (2 ^ 16) = .ok l) :
    m.secChain = (((m.bootReach.flashPut 0x2910000 (2 ^ 16) l).evPermanent ST_OK).set F.SEC_CMD_status 0 ST_OK).msix 0 1 :=
  Mod.secRun_of_free hfree (by simp only [hok, himage, ne_eq, not_true_eq_false, if_false])

theorem Mod.secChain_of_error (hok : m.identityRefusal true = ST_OK) (himage : m.bootReach.bootImage [9] 0 (2 ^ 16) = .error st) :
    m.secChain = (m.bootReach.set F.SEC_CMD_status 0 st).msix 0 1 :=
  Mod.secRun_of_free hfree (by simp only [hok, himage, ne_eq, not_true_eq_false, if_false])

/-- A token that fits this module opens the debug scope that it names (R447). -/
theorem Mod.secUnlock_of_ok (hroom : m.on F.SEC_STAT_perm_full = false) (hpres : m.present = true)
    (himage : m.bootReach.bootImage [7] 0 (2 ^ 25) = .ok l) :
    m.secUnlock =
      let k := m.bootReach
      let scope := leNat (slice (l.drop 0x400) 24 4)
      if k.tokenFits (l.drop 0x400) then
        (((({ k with boot := { k.boot with debug := scope } } : Mod).set
          F.SEC_STAT_debug_state 0 scope).newNonce.evPermanent ST_OK).set F.SEC_CMD_status 0 ST_OK).msix 0 1
      else (k.set F.SEC_CMD_status 0 ST_UNLOCK_INVALID).msix 0 1 := by
  dsimp only
  split_ifs with hfits
  · exact Mod.secRun_of_free hfree (by
      simp only [hroom, hpres, himage, hfits, Bool.not_true, Bool.false_eq_true, if_false])
  · exact Mod.secRun_of_free hfree (by
      simp only [hroom, hpres, himage, hfits, Bool.not_true, Bool.not_false, Bool.false_eq_true, if_false, if_true])

theorem Mod.secUnlock_of_error (hroom : m.on F.SEC_STAT_perm_full = false) (hpres : m.present = true)
    (himage : m.bootReach.bootImage [7] 0 (2 ^ 25) = .error st) :
    m.secUnlock = (m.bootReach.set F.SEC_CMD_status 0
      (if st = ST_SIG_INVALID ∨ st = ST_HASH_MISMATCH then ST_UNLOCK_INVALID else st)).msix 0 1 :=
  Mod.secRun_of_free hfree (by
    simp only [hroom, hpres, himage, Bool.not_true, Bool.false_eq_true, if_false, Bool.or_eq_true, decide_eq_true_eq])

theorem Mod.secRaise_of_present {im : Image} (hpres : m.present = true) (hfw : m.boot.firmware = some im) :
    m.secRaise = ((m.set F.SEC_STAT_min_svn 0 (max im.svn (m.get F.SEC_STAT_min_svn))).set F.SEC_CMD_status 0 ST_OK).msix 0 1 :=
  Mod.secRun_of_free hfree (by simp only [hpres, hfw, Bool.not_true, Bool.false_eq_true, if_false])

theorem Mod.secRelock_of_free :
    m.secRelock = ((({ m with boot := { m.boot with debug := 0 } } : Mod).set F.SEC_STAT_debug_state 0 0).newNonce.set
      F.SEC_CMD_status 0 ST_OK).msix 0 1 := Mod.secRun_of_free hfree rfl

end

/-- Settles O52. -/
theorem securityCommands : Obligations.SecurityCommands := by
  intro s ho hfree fin m
  refine ⟨fun hok => ?provision, fun hbad => ?refused, fun hok => ⟨?replace, ?chain⟩, fun hroom hpres => ?unlock, ?relock,
    fun im hpres hfw => ?raise⟩
  case provision =>
    cases himage : s.mod.bootReach.bootImage [8] 0 (2 ^ 25) true with
    | ok l => exact State.onMod_host_eq ho (Mod.secProvision_of_ok hfree hok himage)
    | error st => exact State.onMod_host_eq ho (Mod.secProvision_of_error hfree hok himage)
  case refused => exact State.onMod_host_eq ho (Mod.secProvision_of_refused hfree hbad)
  case replace =>
    cases himage : s.mod.bootReach.bootImage [8] 0 (2 ^ 25) with
    | ok l =>
      refine (State.onMod_host_eq ho (Mod.secReplace_of_ok hfree hok himage)).trans ?_
      dsimp only
      split_ifs <;> rfl
    | error st => exact State.onMod_host_eq ho (Mod.secReplace_of_error hfree hok himage)
  case chain =>
    cases himage : s.mod.bootReach.bootImage [9] 0 (2 ^ 16) with
    | ok l => exact State.onMod_host_eq ho (Mod.secChain_of_ok hfree hok himage)
    | error st => exact State.onMod_host_eq ho (Mod.secChain_of_error hfree hok himage)
  case unlock =>
    cases himage : s.mod.bootReach.bootImage [7] 0 (2 ^ 25) with
    | ok l =>
      refine (State.onMod_host_eq ho (Mod.secUnlock_of_ok hfree hroom hpres himage)).trans ?_
      dsimp only
      split_ifs <;> rfl
    | error st => exact State.onMod_host_eq ho (Mod.secUnlock_of_error hfree hroom hpres himage)
  case relock => exact State.onMod_host_eq ho (Mod.secRelock_of_free hfree)
  case raise => exact State.onMod_host_eq ho (Mod.secRaise_of_present hfree hpres hfw)

/-! ### Presence and the seal (R423, R437, R438) -/

theorem Mod.presenceAssert_of_armed {m : Mod} (hsup : m.standby = true) (harmed : m.boot.presenceArmed = true) :
    m.presenceAssert =
      let k : Mod := { m with boot := { m.boot with presenceArmed := false, presenceOpen := some m.time } }
      ((k.set F.SEC_STAT_presence 0 1).set F.SEC_STAT_window_s 0 600).msix 0 1 :=
  if_pos (by rw [hsup, harmed]; rfl)

theorem Mod.sealCheck_of_standby {m : Mod} (intact : Bool) (hsup : m.standby = true) :
    m.sealCheck intact =
      let k : Mod := { (m.set F.SEC_STAT_seal_intact 0 (b2n intact)) with boot := { m.boot with sealWas := intact } }
      if m.boot.sealWas && !intact then ((k.evPermanent ST_SEAL_OPEN).bump F.SEC_STAT_seal_opens 0 1).set F.SEC_STAT_seal_opened 0 1
      else k :=
  if_neg (by rw [hsup]; decide)

theorem Mod.calRecord_of_due {m : Mod} (hp : m.powered = true) (hnew : m.boot.calChanged = true) (hdue : m.calDue = true) :
    m.calRecord = m.calWrite :=
  if_pos (by rw [hp, hnew, hdue]; rfl)

/-- Settles O53. -/
theorem presenceAndSeal : Obligations.PresenceAndSeal := by
  refine fun s => ⟨fun hsup harmed => ?asserts, ?expiry, ?release, fun intact hsup => ?sealLoop, fun hp hnew hdue => ?record⟩
  case asserts => exact State.onMod_next (Mod.presenceAssert_of_armed hsup harmed)
  case expiry => exact State.onMod_next rfl
  case release => exact State.onMod_next rfl
  case sealLoop => exact State.onMod_next (f := fun m => m.sealCheck intact) (Mod.sealCheck_of_standby intact hsup)
  case record => exact State.onMod_always_eq hp (Mod.calRecord_of_due hp hnew hdue)

/-! ### PCIe (R229, R429-R433, R446) -/

/-- A command that reaches the module also without rails, and that something follows, leaves what its effect leaves, settled. -/
theorem State.onMod_settled {s : State} {f : Mod → Mod} {m : Mod} (h : f s.mod = m) :
    s.onMod (fun m => (f m).settle) = .next (s.leave m.settle) := by rw [State.onMod_eq, h]

theorem Mod.perstAssert_of_powered {m : Mod} (hp : m.powered = true) :
    m.perstAssert = { m.pcieDown with
      pcie := { perst := true, bar4Log2 := if m.pcieDown.inRecovery then 25 else 34, nextTag := m.pcieDown.pcie.nextTag } } := by
  simp only [Mod.perstAssert, hp, if_true]

/-- The five widths that a link may take. -/
theorem width_mem (g : Nat) : 2 ^ (g / 7 % 5) ∈ [1, 2, 4, 8, 16] := by
  have hlt : g / 7 % 5 < 5 := Nat.mod_lt _ (by decide)
  generalize g / 7 % 5 = w at hlt
  interval_cases w <;> decide

/-- A link comes up at a generation and width that the next free value gives, with the free configuration (log entry 8). -/
theorem Mod.pcieLinkUp_of_down {m : Mod} (hp : m.powered = true) (hperst : m.pcie.perst = false) (hdown : m.pcie.link = false)
    (hjtag : m.boot.jtag = false) :
    m.pcieLinkUp =
      let g := Config.freeNat m.freeN
      let cfg := Config.pcieSetup m.freeN
      let k := (({ m with freeN := m.freeN + 1 } : Mod).set F.PCI_LINK_gen 0 (1 + g % 7)).set F.PCI_LINK_width 0 (2 ^ (g / 7 % 5))
      let k := k.set F.PCI_LINK_flit 0 (g / 35)
      let fns (l : List (Fin 65)) : Tab Bool := l.foldl (fun t f => Tab.set false t f.val true) []
      { k with pcie := { k.pcie with link := true, busMasterOff := fns cfg.noMaster, relaxed := fns cfg.relaxed,
                                     maxPayload := pcieBytes 512 cfg.payload, maxRead := pcieBytes 4096 cfg.readReq } } :=
  if_neg (by rw [hp, hperst, hdown, hjtag]; decide)

theorem Mod.flrVf_of_here {m : Mod} {v : Nat} (hv : m.vfHere v = true) :
    m.flrVf v = { (m.each (m.vfContexts (some v)) Mod.ctxTeardown) with
      pcie := (m.each (m.vfContexts (some v)) Mod.ctxTeardown).pcie.clearMsix (v + 1) } :=
  if_neg (by rw [hv]; decide)

theorem Mod.flrPf0_of_link {m : Mod} (hp : m.powered = true) (hlink : m.pcie.link = true) :
    m.flrPf0 =
      let k : Mod := { m with pcie := { (m.pcie.clearMsix 0) with
        vfEnable := false, numVfs := 0, bar4Log2 := if m.inRecovery then 25 else 34, maxPayload := 512, maxRead := 512,
        busMasterOff := Tab.set false m.pcie.busMasterOff 0 false, relaxed := Tab.set false m.pcie.relaxed 0 false } }
      (k.each ((List.range 64).filter fun c => k.ctxState c == 1) Mod.ctxTeardown).set F.FLT_IRQ_EN_en 0 0 :=
  if_neg (by rw [hp, hlink]; decide)

theorem Mod.vfEnable_of_link {m : Mod} {num : Nat} (on : Bool) (hp : m.powered = true) (hlink : m.pcie.link = true)
    (hrec : m.inRecovery = false) (hnum : num ≤ 64) :
    m.vfEnable on num = { m with pcie := { m.pcie with vfEnable := on, numVfs := if on then num else 0 } } :=
  if_pos (by rw [hp, hlink, hrec, decide_eq_true hnum]; rfl)

/-- A vector of PF0 that is unmasked while pending fires (R433). -/
theorem Mod.msixUnmask_of_pf0 {m : Mod} {vec : Nat} (hp : m.powered = true) (hlink : m.pcie.link = true) (hvec : vec < vectors 0) :
    m.msixUnmask 0 vec =
      let k : Mod := { m with pcie := { m.pcie with unmasked := Tab.set false m.pcie.unmasked vec true,
                                                    msixPend := Tab.set false m.pcie.msixPend vec false } }
      if Tab.get false m.pcie.msixPend vec then k.emit (.msix 0 vec) else k := by
  have hopen : (!m.powered || !m.pcie.link || decide (vectors 0 ≤ vec) || ((0 : Nat) != 0 && !m.vfHere (0 - 1))) = false := by
    rw [hp, hlink, decide_eq_false (Nat.not_le.2 hvec)]; rfl
  simp only [Mod.msixUnmask, hopen, Nat.zero_mul, Nat.zero_add, Bool.false_eq_true, if_false]

theorem Mod.jtagSelect_of_unpowered {m : Mod} (hp : m.powered = false) :
    m.jtagSelect = { m with boot := { m.boot with jtag := true } } :=
  if_pos (by rw [Mod.powered] at hp ⊢; rw [hp]; rfl)

theorem Mod.jtagSelect_of_powered {m : Mod} (hp : m.powered = true) :
    m.jtagSelect =
      let m : Mod := { m with boot := { m.boot with jtag := true } }
      let live := (List.range 8).filter m.carries0
      let m1 := m.each ((List.range 8).filter fun n => m.get F.LNK_STAT_state n != 0) fun m n => m.portOff n 5
      let m2 := m1.each live fun m n => m.noticeOf n 5 0
      if m2.pcie.link then m2.pcieDown else m2 :=
  if_neg (by rw [Mod.powered] at hp ⊢; rw [hp]; decide)

/-- Settles O54. -/
theorem pcieLinkEvents : Obligations.PcieLinkEvents := by
  refine ⟨fun s => ⟨fun hp => ?perst, ?perstEnds, fun hp hlink => ?down, fun hp hperst hdown hjtag => ?up, fun v hp hv => ?flrVf,
    fun hp hlink => ?flrPf0, fun on num hp hlink hrec hnum => ?vfs, fun vec hp hlink hvec => ?unmask, fun hp => ?jtagOff⟩,
    fun s hp => ?jtag⟩
  case perst => exact State.onMod_settled (Mod.perstAssert_of_powered hp)
  case perstEnds => exact State.onMod_next rfl
  case down => exact State.onMod_always_eq hp (if_pos (by rw [hp, hlink]; rfl))
  case up =>
    refine ⟨Config.pcieSetup s.mod.freeN, 1 + Config.freeNat s.mod.freeN % 7, 2 ^ (Config.freeNat s.mod.freeN / 7 % 5),
      Config.freeNat s.mod.freeN / 35, by omega, by omega, width_mem _, ?_⟩
    intro m m' fns
    exact State.onMod_always_eq hp (Mod.pcieLinkUp_of_down hp hperst hdown hjtag)
  case flrVf => exact State.onMod_always_eq hp (Mod.flrVf_of_here hv)
  case flrPf0 => exact State.onMod_always_eq hp (Mod.flrPf0_of_link hp hlink)
  case vfs => exact State.onMod_always_eq hp (Mod.vfEnable_of_link on hp hlink hrec hnum)
  case unmask => exact State.onMod_always_eq hp (Mod.msixUnmask_of_pf0 hp hlink hvec)
  case jtagOff => exact State.onMod_settled (Mod.jtagSelect_of_unpowered hp)
  case jtag => exact State.onMod_settled (Mod.jtagSelect_of_powered hp)

end Sys2Proof.Machine
end

section
/-! Attestation and the sideband (chapter 14): each answer is one message. -/

namespace Sys2Proof.Machine

/-! ### SPDM (R441-R443; message layouts, log entry 70) -/

section
variable {m : Mod} {ch : Chan}

/-- A request that the transport carries and that comes in its order is answered. -/
theorem Mod.spdmAt_of_order {ok : Spdm → Bool} {f : Mod → Mod} (hh : m.hears ch = true) (ho : ok (m.spdmOf ch) = true) :
    m.spdmAt ch ok f = f m := by
  simp only [Mod.spdmAt, hh, ho, Bool.not_true, Bool.false_eq_true, if_false, if_true]

/-- A request out of its order is answered with `UnexpectedRequest`. -/
theorem Mod.spdmAt_of_early {ok : Spdm → Bool} (f : Mod → Mod) (hh : m.hears ch = true) (ho : ok (m.spdmOf ch) = false) :
    m.spdmAt ch ok f = m.spdmError ch 4 0 := by
  simp only [Mod.spdmAt, hh, ho, Bool.not_true, Bool.false_eq_true, if_false]

/-- A command that the transport carries in its order leaves what its answer leaves. -/
theorem State.onMod_spdm_eq {s : State} {k : Mod} {ok : Spdm → Bool} {f : Mod → Mod} (hh : s.mod.hears ch = true)
    (ho : ok (s.mod.spdmOf ch) = true) (h : f s.mod = k) : s.onMod (fun m => m.spdmAt ch ok f) = .next (s.leave k) := by
  rw [State.onMod_eq, Mod.spdmAt_of_order hh ho, h]

theorem State.onMod_spdm_early {s : State} {ok : Spdm → Bool} {f : Mod → Mod} (hh : s.mod.hears ch = true)
    (ho : ok (s.mod.spdmOf ch) = false) : s.onMod (fun m => m.spdmAt ch ok f) = .next (s.leave (s.mod.spdmError ch 4 0)) := by
  rw [State.onMod_eq, Mod.spdmAt_of_early f hh ho]

theorem Mod.getCertificate_of_slot {slot off : Nat} (len : Nat) (hh : m.hears ch = true) (ho : (m.spdmOf ch).algs = true)
    (hslot : m.slotMask.testBit slot = true) (hoff : off < (m.chain slot).length) :
    m.getCertificate ch slot off len =
      let l := slice (m.chain slot) off (min len ((m.chain slot).length - off))
      m.reply ch 0x02 slot 0 (leBytes 2 l.length ++ leBytes 2 ((m.chain slot).length - off - l.length) ++ l) := by
  rw [Mod.getCertificate, Mod.spdmAt_of_order hh ho, hslot, decide_eq_false (Nat.not_le.2 hoff)]
  exact if_neg (by decide)

theorem Mod.getCertificate_of_no_slot {slot : Nat} (off len : Nat) (hh : m.hears ch = true) (ho : (m.spdmOf ch).algs = true)
    (hslot : m.slotMask.testBit slot = false) : m.getCertificate ch slot off len = m.spdmError ch 1 0 := by
  rw [Mod.getCertificate, Mod.spdmAt_of_order hh ho, hslot]
  exact if_pos rfl

theorem Mod.challenge_of_slot {slot : Nat} (what : Nat) (nonce : List Byte) (hh : m.hears ch = true)
    (ho : (m.spdmOf ch).algs = true) (hslot : m.slotMask.testBit slot = true) :
    m.challenge ch slot what nonce =
      let x := m.drawBytes 32
      let blocks := if what = 1 then [1] else (List.range 23).map (· + 1)
      let summary := if what = 0 then [] else sha256 (blocks.flatMap x.2.measureBlock)
      let body := sha256 (x.2.chain slot) ++ x.1 ++ summary ++ leBytes 2 0
      x.2.reply ch 0x03 slot x.2.slotMask (body ++ Config.sign (nonce ++ body)) := by
  rw [Mod.challenge, Mod.spdmAt_of_order hh ho, hslot]
  exact if_neg (by decide)

theorem Mod.challenge_of_no_slot {slot : Nat} (what : Nat) (nonce : List Byte) (hh : m.hears ch = true)
    (ho : (m.spdmOf ch).algs = true) (hslot : m.slotMask.testBit slot = false) :
    m.challenge ch slot what nonce = m.spdmError ch 1 0 := by
  rw [Mod.challenge, Mod.spdmAt_of_order hh ho, hslot]
  exact if_pos rfl

theorem Mod.getMeasurements_of_op {op : Nat} (attr : Nat) (nonce : List Byte) (slot : Nat) (hh : m.hears ch = true)
    (ho : (m.spdmOf ch).algs = true) (hop : op ≤ 23 ∨ op = 0xFF) :
    m.getMeasurements ch attr op nonce slot =
      let x := m.drawBytes 32
      let ks := if op = 0 then [] else if op = 0xFF then (List.range 23).map (· + 1) else [op]
      let rcd := ks.flatMap m.measureBlock
      let body := leBytes 1 ks.length ++ leBytes 3 rcd.length ++ rcd ++ x.1 ++ leBytes 2 0
      x.2.reply ch 0x60 (if op = 0 then 23 else 0) slot (body ++ if attr % 2 = 1 then Config.sign (nonce ++ body) else []) := by
  have hknown : (decide (op ≠ 0) && decide (op ≠ 0xFF) && decide (23 < op)) = false := by
    rcases hop with h | h
    · rw [decide_eq_false (Nat.not_lt.2 h), Bool.and_false]
    · rw [h]; rfl
  rw [Mod.getMeasurements, Mod.spdmAt_of_order hh ho, hknown]
  exact if_neg Bool.false_ne_true

end

/-- Settles O55. -/
theorem attestation : Obligations.Attestation := by
  intro s ch hh
  refine ⟨?version, fun flags hv => ?caps, fun spec asym hash hc hok => ?algs,
    fun ha => ⟨?digests, fun slot off len hslot hoff => ?certificate, fun slot what nonce hslot => ?challenge,
      fun slot hslot => ⟨fun off len => ?noCertificate, fun what nonce => ?noChallenge⟩,
      fun attr op nonce slot hop => ?measurements⟩,
    fun hv flags => ?capsEarly, fun ha => ?digestsEarly, fun code => ?unsupported⟩
  case version => exact State.onMod_spdm_eq hh rfl rfl
  case caps => exact State.onMod_spdm_eq hh hv rfl
  case algs => exact State.onMod_spdm_eq hh hc (if_neg (by rw [hok]; decide))
  case digests => exact State.onMod_spdm_eq hh ha rfl
  case certificate =>
    intro l
    exact State.onMod_next (f := fun m => m.getCertificate ch slot off len) (Mod.getCertificate_of_slot len hh ha hslot hoff)
  case challenge =>
    intro x blocks summary body
    exact State.onMod_next (f := fun m => m.challenge ch slot what.toNat nonce) (Mod.challenge_of_slot _ nonce hh ha hslot)
  case noCertificate =>
    exact State.onMod_next (f := fun m => m.getCertificate ch slot off len) (Mod.getCertificate_of_no_slot off len hh ha hslot)
  case noChallenge =>
    exact State.onMod_next (f := fun m => m.challenge ch slot what.toNat nonce) (Mod.challenge_of_no_slot _ nonce hh ha hslot)
  case measurements =>
    intro x ks rcd body
    exact State.onMod_next (f := fun m => m.getMeasurements ch attr.toNat op.toNat nonce slot) (Mod.getMeasurements_of_op _ nonce slot hh ha hop)
  case capsEarly => exact State.onMod_spdm_early hh hv
  case digestsEarly => exact State.onMod_spdm_early hh ha
  case unsupported => exact State.onMod_next (if_pos hh)

/-! ### The sideband (R435) -/

/-- Values written with `n` bytes each take `n` bytes for each. -/
theorem length_flatMap_leBytes {α : Type} (n : Nat) (f : α → Nat) (l : List α) :
    (l.flatMap fun x => leBytes n (f x)).length = n * l.length := by
  simp [List.length_flatMap, length_leBytes, Nat.mul_comm]

/-- Where the sideband serves, an answer is one message (R435). -/
theorem Mod.sideband_of_serves {m : Mod} (hs : m.serves = true) (t : Nat) (l : List Byte) : m.sideband t l = m.emit (.mctp t l) :=
  if_pos hs

theorem Mod.doeDiscovery_of_hears {m : Mod} (hh : m.hears .doe = true) (index : Nat) :
    m.doeDiscovery index = m.emit (.doe (if 1 < index then leBytes 4 0xFFFF
      else leBytes 2 1 ++ leBytes 1 index ++ leBytes 1 (if index = 0 then 1 else 0))) :=
  if_neg (by rw [hh]; decide)

/-- The records from `index` to the head, 32 bytes each. -/
theorem Mod.vendorFaultLog_of_serves {m : Mod} {index : Nat} (hs : m.serves = true) (hi : index < 1024) :
    m.vendorFaultLog index = m.emit (.mctp 0x7E
      ((List.range ((m.get F.FLT_LOG_PTR_head + 1024 - index) % 1024)).flatMap fun k =>
        leBytes 32 (Tab.get 0 m.flog ((index + k) % 1024)).toNat)) := by
  rw [Mod.vendorFaultLog, if_pos hi, Mod.sideband_of_serves hs]

/-- Settles O56. -/
theorem sidebandAnswers : Obligations.SidebandAnswers := by
  refine fun s => ⟨fun hh index => ?doe, fun hs => ⟨fun e => ?endpoint, ?sensors, fun index hi => ?faults,
    fun sector count => ?events, fun page => ?dump, ?status⟩⟩
  case doe => exact State.onMod_next (f := fun m => m.doeDiscovery index.toNat) (Mod.doeDiscovery_of_hears hh _)
  case endpoint => exact State.onMod_next (f := fun m => m.assignEid e) (if_pos hs)
  case sensors =>
    refine ⟨_, State.onMod_next (f := Mod.pldmSensors) (Mod.sideband_of_serves hs _ _), ?_⟩
    rw [length_flatMap_leBytes]
    rfl
  case faults =>
    refine ⟨_, State.onMod_next (f := fun m => m.vendorFaultLog index) (Mod.vendorFaultLog_of_serves hs hi), ?_⟩
    rw [length_flatMap_leBytes, List.length_range]
  case events => exact State.onMod_next (f := fun m => m.vendorEventLog sector count) (Mod.sideband_of_serves hs _ _)
  case dump => exact State.onMod_next (f := fun m => m.vendorDump page.toNat) (Mod.sideband_of_serves hs _ _)
  case status =>
    refine ⟨_, State.onMod_next (f := Mod.vendorStatus) (Mod.sideband_of_serves hs _ _), ?_⟩
    simp only [List.length_append, length_leBytes]

end Sys2Proof.Machine
end

section
/-! Power, cooling and clocks (chapter 15). -/

namespace Sys2Proof.Machine

/-- An event of the always-on domain leaves what its effect leaves, settled (R468, R470). -/
theorem State.onMod_aon_eq {s : State} {f : Mod → Mod} {m : Mod} (ha : (s.mod.alive || s.mod.pwr.rails == .brownout) = true)
    (h : f s.mod = m) : s.onMod (fun m => m.aon f) = .next (s.leave m.settle) := by
  rw [State.onMod_eq, Mod.aon, if_pos ha, h]

/-! ### Samples (R456, R466, R467, R470, R471) -/

theorem Mod.powerSample_eq (m : Mod) (v a : Nat) :
    m.powerSample v a =
      let ss := (v * a :: m.pwr.samples).take 100
      let lim := m.effLimit v
      let hi := if lim * 10000 * ss.length < ss.sum then m.pwr.above + 1 else 0
      let lo := if ss.sum * 100 < lim * 10000 * ss.length * 98 then m.pwr.below + 1 else 0
      let k := { m with pwr := { m.pwr with samples := ss, above := hi % 10, below := lo % 100 } }
      let k := (k.set F.PWR_IN_volts_10mv 0 v).set F.PWR_IN_amps_10ma 0 a
      let k := (k.set F.PWR_IN_watts 0 (ss.sum / (10000 * ss.length))).set F.PWR_IN_eff_limit 0 lim
      let t := k.get F.CLK_PCLK_power_mhz 0
      if 5500 < a then k.powerTarget 300
      else if hi = 10 then k.powerTarget (max 300 (t - 25))
      else if lo = 100 then k.powerTarget (min 850 (t + 25)) else k := by
  simp only [Mod.powerSample, decide_eq_true_eq]

/-- Six readings below the trip level set the level of each die (R467). -/
theorem Mod.dieTemps_of_below {m : Mod} {l : List (BitVec 8)} (hlen : l.length = 6) (hlow : ∀ t ∈ l, t.toNat < 115) :
    m.dieTemps l = ((List.range 6).zip (l.map (·.toNat))).foldl (fun m e => m.dieTemp e.1 e.2) m := by
  have hsix : l.take 6 = l := List.take_of_length_le hlen.le
  have hnone : ((l.map (·.toNat)).any fun t => decide (115 ≤ t)) = false := by
    simpa [List.any_eq_false] using hlow
  simp only [Mod.dieTemps, hsix, hnone, List.length_map, hlen, Bool.false_eq_true, if_false]

/-- One reading at the trip level takes the module down (R466). -/
theorem Mod.dieTemps_of_trip {m : Mod} {l : List (BitVec 8)} (hlen : l.length = 6) (hhot : ∃ t ∈ l, 115 ≤ t.toNat) :
    m.dieTemps l = m.trip := by
  have hsix : l.take 6 = l := List.take_of_length_le hlen.le
  have hsome : ((l.map (·.toNat)).any fun t => decide (115 ≤ t)) = true := by
    simpa [List.any_eq_true] using hhot
  simp only [Mod.dieTemps, hsix, hsome, if_true]

/-- While the rails are up the second sample of low flow in a row takes the module down (R470). -/
theorem Mod.coolant_of_on {m : Mod} (flow inlet outlet : Nat) (hon : m.pwr.rails = .on) :
    m.coolant flow inlet outlet =
      let k := { m with pwr := { m.pwr with cool := ((flow, inlet) :: m.pwr.cool).take 10, lowFlow := decide (flow < 1000) } }
      let k := (k.set F.PWR_COOL_flow_ml 0 (k.meanFlow.getD 0)).set F.PWR_COOL_inlet_c 0 inlet
      let k := k.set F.PWR_COOL_outlet_c 0 outlet
      if flow < 1000 ∧ m.pwr.lowFlow = true then (k.retain ST_NO_FLOW).railsOff .noFlow else k := by
  simp only [Mod.coolant, Mod.set_pwr, hon, Bool.and_eq_true, decide_eq_true_eq]

/-- Settles O57. -/
theorem samples : Obligations.Samples := by
  refine fun s => ⟨fun v a hp => ?input, fun l ha hlen hlow => ?die, fun l ha hlen hhot => ?trip, fun flow inlet outlet hon => ?coolant⟩
  case input => exact State.onMod_always_eq hp (Mod.powerSample_eq _ _ _)
  case die => exact State.onMod_aon_eq ha (Mod.dieTemps_of_below hlen hlow)
  case trip => exact State.onMod_aon_eq ha (Mod.dieTemps_of_trip hlen hhot)
  case coolant =>
    have ha : (s.mod.alive || s.mod.pwr.rails == .brownout) = true := by rw [Mod.alive, hon]; rfl
    exact State.onMod_aon_eq ha (Mod.coolant_of_on _ _ _ hon)

/-! ### What takes the rails down (R452, R453, R466, R468) -/

theorem Mod.pins_railsOff {m : Mod} {r : Rails} (hr : r ≠ .on) : (m.railsOff r).pins.pwrOkLow = true := by
  have hp : (m.railsOff r).powered = false := by
    simpa [Mod.powered, Mod.railsOff] using hr
  rw [Mod.pins, hp]
  rfl

/-- Settles O58. -/
theorem railEvents : Obligations.RailEvents := by
  refine fun s => ⟨fun ha => ⟨?overvoltage, ?brownout, ?reference⟩, fun hb => ?returns, ?alwaysOn, fun m r hr => ?pins⟩
  case overvoltage => exact State.onMod_next (if_pos ha)
  case brownout => exact State.onMod_next (if_pos ha)
  case reference => exact State.onMod_next (if_pos ha)
  case returns => exact State.onMod_next (if_pos (by rw [hb]; rfl))
  case alwaysOn => exact State.onMod_next rfl
  case pins => exact Mod.pins_railsOff hr

/-! ### Power states and gates (R460-R462) -/

/-- The end of a transition puts its state in force; a pending target is acted on (R460). -/
theorem Mod.msDone_of_busy {m : Mod} (hbusy : m.on F.PWR_MS_CTL_busy = true) :
    m.msDone =
      let k := (m.set F.PWR_MS_CTL_state 0 m.pwr.msTo).set F.PWR_MS_CTL_busy 0 0
      let k := if m.get F.PWR_MS_CTL_state = 3 ∧ m.pwr.msTo ≠ 3 then k.ms3Exit else k
      let k := (if m.pwr.msTo = 0 then k.msLeave else k.msEnter m.pwr.msTo).clocks
      if k.on F.PWR_MS_CTL_pending then (k.set F.PWR_MS_CTL_pending 0 0).msBegin (k.get F.PWR_MS_CTL_target) else k := by
  simp only [Mod.msDone, hbusy, Bool.not_true, Bool.false_eq_true, if_false, Bool.and_eq_true, decide_eq_true_eq]

theorem Mod.clockGate_of_idle {m : Mod} {p : Nat} (hms : m.get F.PWR_MS_CTL_state = 0) (hen : m.on F.PWR_IDLE_CFG_gate_en = true)
    (hready : m.partReady p = true) (hidle : m.partIdle p = true) :
    m.clockGate p =
      let k := m.set F.PWR_PART_STAT_gate p 1
      (k.setPart p { k.part p with stopTime := m.time }).clockSet p := by
  have hpart : (m.set F.PWR_PART_STAT_gate p 1).part p = m.part p := by rw [Mod.part, Mod.set_parts, Mod.part]
  simp only [Mod.clockGate, hms, hen, hready, hidle, hpart, beq_self_eq_true, Bool.and_self, if_true]

theorem Mod.powerGate_of_gated {m : Mod} {p : Nat} (hms : m.get F.PWR_MS_CTL_state = 0) (hen : m.on F.PWR_IDLE_CFG_gate_en = true)
    (hpg : m.get F.PWR_IDLE_CFG_pg_ms ≠ 0) (hrun : m.get F.PART_STAT_state p = 2) (hgate : m.get F.PWR_PART_STAT_gate p = 1) :
    m.powerGate p = m.set F.PWR_PART_STAT_gate p 2 :=
  if_pos (by simp [hms, hen, hpg, hrun, hgate])

theorem Mod.partWake_of_gated {m : Mod} {p : Nat} (hms : m.get F.PWR_MS_CTL_state = 0) (hgate : m.get F.PWR_PART_STAT_gate p ≠ 0)
    (hrun : m.get F.PART_STAT_state p = 2) (hwell : m.failed = false) :
    m.partWake p = m.ungate p (m.get F.PWR_PART_STAT_gate p - 1) :=
  if_pos (by simp [hms, hrun, hgate, hwell])

/-- Settles O59. -/
theorem powerStates : Obligations.PowerStates := by
  refine fun s => ⟨fun t ho => ?target, fun hp hbusy => ?done, fun p hw hms =>
    ⟨fun hen hready hidle => ?clockGate, fun hen hpg hrun hgate => ?powerGate, fun hgate hrun hwell => ?wake⟩⟩
  case target => exact State.onMod_host_eq ho rfl
  case done => exact State.onMod_always_eq hp (Mod.msDone_of_busy hbusy)
  case clockGate => exact State.onMod_engine_eq hw (Mod.clockGate_of_idle hms hen hready hidle)
  case powerGate => exact State.onMod_engine_eq hw (Mod.powerGate_of_gated hms hen hpg hrun hgate)
  case wake => exact State.onMod_engine_eq hw (Mod.partWake_of_gated hms hgate hrun hwell)

end Sys2Proof.Machine
end

section
/-! Register writes (R7, R8, R11, R12): what reaches a register, and what it holds afterwards. -/

namespace Sys2Proof.Machine

/-! ### The new value bit by bit (R8) -/

/-- Subtracting the bits that two numbers share clears exactly those. -/
theorem testBit_sub_and (x y b : Nat) : (x - (x &&& y)).testBit b = (x.testBit b && !y.testBit b) := by
  induction b generalizing x y with
  | zero =>
    have hle : x &&& y ≤ x := Nat.and_le_left
    have hmod : (x &&& y) % 2 = x % 2 &&& y % 2 := Nat.and_mod_two_pow (n := 1)
    simp only [Nat.testBit_zero]
    rcases Nat.mod_two_eq_zero_or_one x with hx | hx <;> rcases Nat.mod_two_eq_zero_or_one y with hy | hy <;>
      simp only [hx, hy, Nat.zero_and, Nat.and_zero, Nat.and_self] at hmod ⊢ <;> simp <;> omega
  | succ b ih =>
    have hle : x &&& y ≤ x := Nat.and_le_left
    have hmod : (x &&& y) % 2 = x % 2 &&& y % 2 := Nat.and_mod_two_pow (n := 1)
    have hlow : x % 2 &&& y % 2 ≤ x % 2 := Nat.and_le_left
    have hdiv : (x &&& y) / 2 = x / 2 &&& y / 2 := Nat.and_div_two
    have hhalf : (x - (x &&& y)) / 2 = x / 2 - (x / 2 &&& y / 2) := by omega
    rw [Nat.testBit_succ, Nat.testBit_succ, Nat.testBit_succ, hhalf, ih]

/-- A writable bit that the access covers is the written one; a covered write-1-to-clear bit written 1 is 0; every other bit stays. -/
theorem Reg.testBit_next {r : Reg} (hr : r.rw &&& r.w1c = 0) (mask old v b : Nat) :
    (r.next 0 mask old v).testBit b
      = (if r.rw.testBit b && mask.testBit b then v.testBit b
         else old.testBit b && !(r.w1c.testBit b && mask.testBit b && v.testBit b)) := by
  have hapart : (r.rw.testBit b && r.w1c.testBit b) = false := by rw [← Nat.testBit_and, hr, Nat.zero_testBit]
  simp only [Reg.next, testBit_sub_and, Nat.testBit_or, Nat.testBit_and, Nat.zero_testBit, Bool.or_false]
  cases hrw : r.rw.testBit b <;> cases mask.testBit b <;> cases v.testBit b <;> simp_all

/-! ### Accesses that reach their block (R11, R371) -/

theorem State.registerWrite_bar0 {s : State} {off size : Nat} (v : W64) (hoff : off < 2 ^ 26)
    (ho : s.mod.hostOpen (blockOf off) = true) (hok : accessOk off size = true) :
    exec (.registerWrite (.bar0 off) size v) s = .next (s.leave (s.mod.writeBar0 off size v.toNat).settle) := by
  have hreach : s.mod.registerWrite (.bar0 off) size v.toNat = (s.mod.writeBar0 off size v.toNat).settle := by
    rw [Mod.registerWrite, if_neg (Nat.not_le.2 hoff), hok, Mod.host_of_open ho]
    rfl
  exact State.onMod_next (f := fun m => m.registerWrite (.bar0 off) size v.toNat) hreach

theorem State.registerWrite_bar0_bad {s : State} {off size : Nat} (v : W64) (hoff : off < 2 ^ 26)
    (ho : s.mod.hostOpen (blockOf off) = true) (hbad : accessOk off size = false) :
    exec (.registerWrite (.bar0 off) size v) s = .next (s.leave (s.mod.refuse ST_BAD_ACCESS (blockOf off) off)) := by
  have hrefuse : s.mod.badAccess off = s.mod.refuse ST_BAD_ACCESS (blockOf off) off := by
    simp only [Mod.hostOpen, Bool.and_eq_true, Bool.not_eq_true', decide_eq_true_eq] at ho
    obtain ⟨⟨⟨⟨hp, hlink⟩, hrec⟩, hstep⟩, -⟩ := ho
    simp only [Mod.badAccess, hp, hlink, hrec, decide_eq_false (Nat.not_lt.2 hstep), Bool.not_true, Bool.or_self, Bool.and_false,
      Bool.false_eq_true, if_false]
  have hreach : s.mod.registerWrite (.bar0 off) size v.toNat = s.mod.refuse ST_BAD_ACCESS (blockOf off) off := by
    rw [Mod.registerWrite, if_neg (Nat.not_le.2 hoff), hbad, ← hrefuse]
    rfl
  exact State.onMod_next (f := fun m => m.registerWrite (.bar0 off) size v.toNat) hreach

theorem State.registerWrite_door {s : State} {d : Door} {i off size : Nat} (v : W64) (hoff : off < 4096)
    (hd : s.mod.doorOpen d i = true) (hok : accessOk off size = true) :
    exec (.registerWrite (.door d off) size v) s = .next (s.leave (s.mod.writeDoor i off size v.toNat).settle) := by
  have hreach : s.mod.registerWrite (.door d off) size v.toNat = (s.mod.writeDoor i off size v.toNat).settle := by
    rw [Mod.registerWrite, if_neg (Nat.not_le.2 hoff), hok]
    exact Mod.doorbell_of_open hd _
  exact State.onMod_next (f := fun m => m.registerWrite (.door d off) size v.toNat) hreach

theorem State.registerWrite_door_bad {s : State} {d : Door} {i off size : Nat} (v : W64) (hoff : off < 4096)
    (hd : s.mod.doorOpen d i = true) (hbad : accessOk off size = false) :
    exec (.registerWrite (.door d off) size v) s = .next (s.leave (s.mod.refuse ST_BAD_ACCESS Blk.Q off).settle) := by
  have hreach : s.mod.registerWrite (.door d off) size v.toNat = (s.mod.refuse ST_BAD_ACCESS Blk.Q off).settle := by
    rw [Mod.registerWrite, if_neg (Nat.not_le.2 hoff), hbad]
    exact Mod.doorbell_of_open hd _
  exact State.onMod_next (f := fun m => m.registerWrite (.door d off) size v.toNat) hreach

/-! ### A write of a whole register (R8, R371) -/

/-- An access of a register's own size writes its bits. -/
theorem Mod.writeBar0_of_reg {m : Mod} {off i n : Nat} {r : Reg} (v : W64) (hfind : regFind off = some (r, i, n))
    (hok : accessOk off r.bytes = true) :
    m.writeBar0 off r.bytes v.toNat = m.regPut r off i (2 ^ (8 * r.bytes) - 1) (v.toNat % 2 ^ (8 * r.bytes)) := by
  have hbytes : r.bytes = 4 ∨ r.bytes = 8 := by
    simp only [accessOk, Bool.and_eq_true, Bool.or_eq_true, beq_iff_eq] at hok
    exact hok.1
  rcases hbytes with h | h
  · rw [Mod.writeBar0, h, if_pos rfl, Mod.write32, hfind]
  · rw [Mod.writeBar0, h, if_neg (by decide), hfind, Nat.mod_eq_of_lt v.isLt]
    exact if_pos h

theorem Mod.regPut_of_mute {m : Mod} {r : Reg} {off i mask w : Nat} (hmute : m.mute r i = true) :
    m.regPut r off i mask w = m.noResponse off := if_pos hmute

/-- A register without an effect of its own takes the new value unless a rule refuses it. -/
theorem Mod.regPut_of_plain {m : Mod} {r : Reg} {off i mask w : Nat} (hmute : m.mute r i = false)
    (h0 : m.regActs0 r off i mask w = none) (h1 : m.regActs1 r off i mask w = none) :
    m.regPut r off i mask w =
      let old := m.regAt off r.reset
      let new := r.next 0 mask old w
      if m.writeRefusal r i mask old new = ST_OK then m.setRegAt off r.reset new
      else m.refuseWrite (m.writeRefusal r i mask old new) off r.base i := by
  simp only [Mod.regPut, hmute, h0, h1, Mod.plainWrite, Bool.false_eq_true, if_false, ne_eq, ite_not]

/-- Settles O60. -/
theorem registerWrites : Obligations.RegisterWrites := by
  refine ⟨fun s off size v hoff ho => ⟨fun hok => ?bar0, fun hbad => ?bar0Bad⟩,
    fun s d i off size v hoff hd => ⟨fun hok => ?door, fun hbad => ?doorBad⟩,
    fun s off i n v r hoff ho hfind hok => ⟨fun hmute => ?mute, fun hmute h0 h1 => ?plain⟩, fun r mask old v b hr => ?bits⟩
  case bar0 => exact State.registerWrite_bar0 v hoff ho hok
  case bar0Bad => exact State.registerWrite_bar0_bad v hoff ho hbad
  case door => exact State.registerWrite_door v hoff hd hok
  case doorBad => exact State.registerWrite_door_bad v hoff hd hbad
  case mute => rw [State.registerWrite_bar0 v hoff ho hok, Mod.writeBar0_of_reg v hfind hok, Mod.regPut_of_mute hmute]
  case plain => rw [State.registerWrite_bar0 v hoff ho hok, Mod.writeBar0_of_reg v hfind hok, Mod.regPut_of_plain hmute h0 h1]
  case bits => exact Reg.testBit_next hr mask old v b

end Sys2Proof.Machine
end
